-- ==== Sys2Proof/Word.lean ====
section
/-! DEFINITION. The basic values of NORSEQ (00_scope.md R8, R10): bytes and 16-bit cells. A bus byte address, an offset and
a length are numbers: their width AW is a parameter of the model (R8, D2), so they are the numbers below `2 ^ AW`, the
source index SIDX those below `2 ^ (AW + 1)` (10_state.md R27), and every sum is reduced where it is formed (20_memory.md
R66; log 1). -/

namespace Sys2Proof

/-- A byte of a requester's buffer. -/
abbrev Byte := BitVec 8

/-- A 16-bit cell, "the unit of every bus access" (R10); `CELL_BITS` of R8. -/
abbrev Cell := BitVec 16

end Sys2Proof
end

