-- ==== Sys2Proof/Config.lean ====
section
/-! DEFINITION. What an implementation of NORSEQ fixes (00_scope.md R8), the flash command values (30_encoding.md R111),
and the free values the spec leaves open. -/

namespace Sys2Proof

/-- A bus event (00_scope.md R11, R12): `W(addr, value)` or `R(addr, value)`. -/
inductive BusEvent where
  | w (addr : Nat) (value : Cell)
  | r (addr : Nat) (value : Cell)
deriving DecidableEq, Repr

namespace Config

/-! The parameters R8 marks fixed, and the sequence literals of R111, R200 to R207, R240 to R260. -/

/-- `UNLOCK1_OFFSET` (R8). -/
def unlock1Offset : Nat := 0xAAA
/-- `UNLOCK2_OFFSET` (R8). -/
def unlock2Offset : Nat := 0x554
/-- `CMD_OFFSET`: the command cycle that follows an unlock (R8). -/
def cmdOffset : Nat := 0xAAA
/-- `CFI_ENTRY_OFFSET` (R8). -/
def cfiEntryOffset : Nat := 0xAA
/-- `EXT_ID1_OFFSET` (R8). -/
def extId1Offset : Nat := 0x1C
/-- `EXT_ID2_OFFSET` (R8). -/
def extId2Offset : Nat := 0x1E
/-- `EXT_ID_SENTINEL` (R8): the low byte that means "extended ID follows". -/
def extIdSentinel : Byte := 0x7E
/-- `WB_PAGE_WORDS` (R8): most words a write-buffer page holds. -/
def wbPageWords : Nat := 32

/-- `UNLOCK1_VALUE`, zero-extended to the bus (R8, R111, R112). -/
def unlock1Value : Cell := 0x00AA
/-- `UNLOCK2_VALUE` (R8, R111). -/
def unlock2Value : Cell := 0x0055
/-- `CYC_RESET` (R111). -/
def resetValue : Cell := 0x00F0
/-- `CYC_ID_ENTRY` (R111). -/
def idEntryValue : Cell := 0x0090
/-- `CYC_CFI_ENTRY` (R111). -/
def cfiEntryValue : Cell := 0x0098
/-- `CYC_WORD_PGM` (R111). -/
def wordPgmValue : Cell := 0x00A0
/-- `CYC_ERASE_SETUP` (R111). -/
def eraseSetupValue : Cell := 0x0080
/-- `CYC_ERASE_CONFIRM` (R111). -/
def eraseConfirmValue : Cell := 0x0030
/-- `CYC_WB_LOAD` (R111). -/
def wbLoadValue : Cell := 0x0025
/-- `CYC_WB_CONFIRM` (R111). -/
def wbConfirmValue : Cell := 0x0029
/-- The value an erased cell is polled for (R250). -/
def erasedCell : Cell := 0xFFFF

/-- `WB_UNLOCK_ORIGIN` (R8, R261). -/
inductive UnlockOrigin where
  | base
  | page
deriving DecidableEq, Repr

/-- The parameters R8 marks default or OPEN: a model "takes the parameter as an argument". They are constant while the
block runs (R24); `State` holds them beside the registers so that statements range over all their values (log 4). -/
structure Params where
  /-- `AW`: the width of a bus byte address, of BASE, of offsets and of lengths. -/
  aw : Nat
  /-- `POLL_CEILING`. -/
  pollCeiling : BitVec 32
  /-- `MFR_CELL_OFFSET`. -/
  mfrCellOffset : Nat
  /-- `DEV_CELL_OFFSET`. -/
  devCellOffset : Nat
  /-- `SIZE_FIELD_OFFSET`. -/
  sizeFieldOffset : Nat
  /-- `BLKSZ_LOW_OFFSET`. -/
  blkszLowOffset : Nat
  /-- `BLKSZ_HIGH_OFFSET`. -/
  blkszHighOffset : Nat
  /-- `TRAILING_RESET_UNLISTED`. -/
  trailingResetUnlisted : Bool
  /-- `WB_UNLOCK_ORIGIN`. -/
  wbUnlockOrigin : UnlockOrigin
  /-- `WINDOW_BYTES`: the size of the flash window, if the platform states one; "the block never checks it". -/
  windowBytes : Option Nat
deriving DecidableEq, Repr

/-- The defaults of R8. `WINDOW_BYTES` has none (OPEN): no size is stated (log 24). -/
def Params.default : Params where
  aw := 32
  pollCeiling := 0xFFFFFFFF
  mfrCellOffset := 0x00
  devCellOffset := 0x02
  sizeFieldOffset := 0x4E
  blkszLowOffset := 0x5E
  blkszHighOffset := 0x60
  trailingResetUnlisted := true
  wbUnlockOrigin := .base
  windowBytes := none

/-- "the cell-offset parameters of `00_scope.md` rule R8 even" (20_memory.md R68). -/
def Params.even (p : Params) : Bool :=
  p.mfrCellOffset % 2 == 0 && p.devCellOffset % 2 == 0 && p.sizeFieldOffset % 2 == 0 &&
    p.blkszLowOffset % 2 == 0 && p.blkszHighOffset % 2 == 0

/-! Free values: constants without a body. -/

/-- The device as an oracle (47_flash_device_environment.md R320): it answers a read at an address with "some 16-bit
value, which may depend on the whole earlier bus trace" (log 5). -/
opaque deviceAnswer : List BusEvent → Nat → Cell

/-- The n-th free cell: the "unspecified value" of a bus-faulted read (60_exceptions.md R364; log 16). -/
opaque freeCell : Nat → Cell

/-- The n-th free byte: a source byte at an index where the requester's buffer is not known (44_program_erase.md R262,
U3; log 15). -/
opaque freeByte : Nat → Byte

/-- The byte at an address of the n-th unknown array: what the device's array holds after a malformed command sequence
(47_flash_device_environment.md R330, U6; log 25). -/
opaque unknownByte : Nat → Nat → Byte

/-- The answer of QUERY FlashBase when BASE has a value that 64 bits do not hold, which only AW > 64 allows:
`zext_64(BASE)` (43_ident_query.md R215) is then not stated (log 1). -/
opaque wideBaseResult : Nat → BitVec 64

end Config
end Sys2Proof
end

