-- ==== Sys2Proof/Syntax.lean ====
section
/-! DEFINITION. The operations of NORSEQ (30_encoding.md R102) and its flash command cycles (R111): one constructor per
row of the opcode table. -/

namespace Sys2Proof

/-- The operand fields of a request (R100). An operation ignores the fields its row of R102 does not list ("any value"),
but latches and reports them all (R26, R107), so every request carries all four. -/
structure Fields where
  /-- Operation kind, used by POLL only (R106). -/
  kind : BitVec 2
  /-- First address-sized operand, AW bits. -/
  a0 : Nat
  /-- Second address-sized operand, AW bits. -/
  a1 : Nat
  /-- 16-bit data operand. -/
  d : Cell
deriving DecidableEq, Repr

/-- The rows of the opcode table: fifteen requests, twelve command cycles. -/
inductive Instr where
  | init (f : Fields)
  | write16 (f : Fields)
  | read16 (f : Fields)
  | unlock (f : Fields)
  | reset (f : Fields)
  | poll (f : Fields)
  | getManufacturerId (f : Fields)
  | getDeviceId (f : Fields)
  | readQueryField (f : Fields)
  | getBlockSize (f : Fields)
  | query (f : Fields)
  | wordProgram (f : Fields)
  | eraseBlock (f : Fields)
  | writeBuffer (f : Fields)
  | readBuffer (f : Fields)
  | cycUnlock1
  | cycUnlock2
  | cycReset
  | cycIdEntry
  | cycCfiEntry
  | cycWordPgm
  | cycEraseSetup
  | cycEraseConfirm
  | cycWbLoad
  /-- `block_words - 1`, 0 to 31 (R111). -/
  | cycWbCount (n : BitVec 5)
  | cycWbConfirm
  /-- The data word (R111). -/
  | cycData (v : Cell)
deriving DecidableEq, Repr

/-- Is the instruction a request (format REQ), or a command cycle (format CYCLE)? -/
def Instr.isRequest : Instr → Bool
  | .init _ => true
  | .write16 _ => true
  | .read16 _ => true
  | .unlock _ => true
  | .reset _ => true
  | .poll _ => true
  | .getManufacturerId _ => true
  | .getDeviceId _ => true
  | .readQueryField _ => true
  | .getBlockSize _ => true
  | .query _ => true
  | .wordProgram _ => true
  | .eraseBlock _ => true
  | .writeBuffer _ => true
  | .readBuffer _ => true
  | .cycUnlock1 => false
  | .cycUnlock2 => false
  | .cycReset => false
  | .cycIdEntry => false
  | .cycCfiEntry => false
  | .cycWordPgm => false
  | .cycEraseSetup => false
  | .cycEraseConfirm => false
  | .cycWbLoad => false
  | .cycWbCount _ => false
  | .cycWbConfirm => false
  | .cycData _ => false

end Sys2Proof
end

