-- ==== Sys2Proof/WellFormed.lean ====
section
/-! DEFINITION. When an instruction is well formed: its address-sized operands are AW bits wide (30_encoding.md R100), and
those that name a 16-bit cell are even (20_memory.md R68; R108 (2), (4)). A decoded request always has the width; one
that is not aligned is answered ILLEGAL_REQUEST (`Machine/Ops.lean`). -/

namespace Sys2Proof

/-- The address-sized operands are AW bits wide (R100). -/
def Fields.fits (aw : Nat) (f : Fields) : Bool := decide (f.a0 < 2 ^ aw) && decide (f.a1 < 2 ^ aw)

/-- The alignment rule R68, per operation. READ_BUFFER's operands, WRITE_BUFFER's length and QUERY's key are never
checked (R108); the command cycles carry no address. -/
def Instr.aligned : Instr → Bool
  | .init f => f.a0 % 2 == 0
  | .write16 f => f.a0 % 2 == 0
  | .read16 f => f.a0 % 2 == 0
  | .unlock _ => true
  | .reset _ => true
  | .poll f => f.a0 % 2 == 0
  | .getManufacturerId _ => true
  | .getDeviceId _ => true
  | .readQueryField f => f.a0 % 2 == 0
  | .getBlockSize f => f.a0 % 2 == 0 && f.a1 % 2 == 0
  | .query _ => true
  | .wordProgram f => f.a0 % 2 == 0
  | .eraseBlock f => f.a0 % 2 == 0
  | .writeBuffer f => f.a0 % 2 == 0
  | .readBuffer _ => true
  | .cycUnlock1 => true
  | .cycUnlock2 => true
  | .cycReset => true
  | .cycIdEntry => true
  | .cycCfiEntry => true
  | .cycWordPgm => true
  | .cycEraseSetup => true
  | .cycEraseConfirm => true
  | .cycWbLoad => true
  | .cycWbCount _ => true
  | .cycWbConfirm => true
  | .cycData _ => true

/-- The operands have the widths of their fields (R100), per operation. -/
def Instr.fits (aw : Nat) : Instr → Bool
  | .init f => f.fits aw
  | .write16 f => f.fits aw
  | .read16 f => f.fits aw
  | .unlock f => f.fits aw
  | .reset f => f.fits aw
  | .poll f => f.fits aw
  | .getManufacturerId f => f.fits aw
  | .getDeviceId f => f.fits aw
  | .readQueryField f => f.fits aw
  | .getBlockSize f => f.fits aw
  | .query f => f.fits aw
  | .wordProgram f => f.fits aw
  | .eraseBlock f => f.fits aw
  | .writeBuffer f => f.fits aw
  | .readBuffer f => f.fits aw
  | .cycUnlock1 => true
  | .cycUnlock2 => true
  | .cycReset => true
  | .cycIdEntry => true
  | .cycCfiEntry => true
  | .cycWordPgm => true
  | .cycEraseSetup => true
  | .cycEraseConfirm => true
  | .cycWbLoad => true
  | .cycWbCount _ => true
  | .cycWbConfirm => true
  | .cycData _ => true

/-- Well formed at the address width `aw`. -/
def Instr.wellFormed (aw : Nat) (i : Instr) : Bool := i.fits aw && i.aligned

end Sys2Proof
end

