-- ==== Sys2Proof/Decode.lean ====
section
/-! DEFINITION. Decoding a packed request word (30_encoding.md R100, R102, R109) and a command-cycle word (R111), and
the encoder after it. -/

namespace Sys2Proof

/-! The operation codes of R102. -/

namespace Opcode
def init : BitVec 8 := 0x01
def write16 : BitVec 8 := 0x02
def read16 : BitVec 8 := 0x03
def unlock : BitVec 8 := 0x04
def reset : BitVec 8 := 0x05
def poll : BitVec 8 := 0x06
def getManufacturerId : BitVec 8 := 0x10
def getDeviceId : BitVec 8 := 0x11
def readQueryField : BitVec 8 := 0x12
def getBlockSize : BitVec 8 := 0x13
def query : BitVec 8 := 0x14
def wordProgram : BitVec 8 := 0x20
def eraseBlock : BitVec 8 := 0x21
def writeBuffer : BitVec 8 := 0x22
def readBuffer : BitVec 8 := 0x23
end Opcode

/-- Why a word is no instruction. -/
inductive DecodeError where
  /-- An operation code outside the fifteen of R102 (R109). -/
  | illegalOpcode (op : BitVec 8)
  /-- A word-count cycle outside 0x0000 to 0x001F (R111). -/
  | countOutOfRange (v : Cell)
  /-- A 16-bit value that is none of the fixed command values of R111. -/
  | notACommand (v : Cell)
deriving DecidableEq, Repr

/-- What a decoder answers. -/
inductive Decoded where
  | ok (i : Instr)
  | reject (e : DecodeError)
deriving DecidableEq, Repr

/-- The instruction, or none where the word is rejected. -/
def Decoded.toOption : Decoded → Option Instr
  | .ok i => some i
  | .reject _ => none

/-- Bits 7:0 of the request word (R100). -/
def opOf (w : Nat) : BitVec 8 := BitVec.ofNat 8 w

/-- The operand fields of the request word (R100): `kind` bits 9:8, `a0` bits 16+AW-1:16, `a1` bits 16+2*AW-1:16+AW, `d`
the 16 bits above (the place of KIND: log 10). Bits 15:10 are ignored (R109). -/
def fieldsOf (aw w : Nat) : Fields where
  kind := BitVec.ofNat 2 (w / 2 ^ 8)
  a0 := w / 2 ^ 16 % 2 ^ aw
  a1 := w / 2 ^ (16 + aw) % 2 ^ aw
  d := BitVec.ofNat 16 (w / 2 ^ (16 + 2 * aw))

/-- The decoder of requests: "selects the operation on `op` alone (mask 0xFF)" (R102); every other code is illegal
(R109). -/
def decode (aw w : Nat) : Decoded :=
  match (opOf w).toNat with
  | 0x01 => .ok (.init (fieldsOf aw w))
  | 0x02 => .ok (.write16 (fieldsOf aw w))
  | 0x03 => .ok (.read16 (fieldsOf aw w))
  | 0x04 => .ok (.unlock (fieldsOf aw w))
  | 0x05 => .ok (.reset (fieldsOf aw w))
  | 0x06 => .ok (.poll (fieldsOf aw w))
  | 0x10 => .ok (.getManufacturerId (fieldsOf aw w))
  | 0x11 => .ok (.getDeviceId (fieldsOf aw w))
  | 0x12 => .ok (.readQueryField (fieldsOf aw w))
  | 0x13 => .ok (.getBlockSize (fieldsOf aw w))
  | 0x14 => .ok (.query (fieldsOf aw w))
  | 0x20 => .ok (.wordProgram (fieldsOf aw w))
  | 0x21 => .ok (.eraseBlock (fieldsOf aw w))
  | 0x22 => .ok (.writeBuffer (fieldsOf aw w))
  | 0x23 => .ok (.readBuffer (fieldsOf aw w))
  | _ => .reject (.illegalOpcode (opOf w))

/-- What a place in a command sequence expects. A data cycle is "recognised by position in the sequence, not by value"
(opcode table, CYC_DATA), and so is a word count, so a cycle word is decoded together with its place. -/
inductive CyclePlace where
  | command
  | count
  | data
deriving DecidableEq, Repr

/-- The decoder of command-cycle words (R111). -/
def decodeCycle (p : CyclePlace) (v : Cell) : Decoded :=
  match p with
  | .data => .ok (.cycData v)
  | .count => if v.toNat < 32 then .ok (.cycWbCount (v.extractLsb' 0 5)) else .reject (.countOutOfRange v)
  | .command =>
    match v.toNat with
    | 0xAA => .ok .cycUnlock1
    | 0x55 => .ok .cycUnlock2
    | 0xF0 => .ok .cycReset
    | 0x90 => .ok .cycIdEntry
    | 0x98 => .ok .cycCfiEntry
    | 0xA0 => .ok .cycWordPgm
    | 0x80 => .ok .cycEraseSetup
    | 0x30 => .ok .cycEraseConfirm
    | 0x25 => .ok .cycWbLoad
    | 0x29 => .ok .cycWbConfirm
    | _ => .reject (.notACommand v)

/-- A 16-bit word of the table's format CYCLE read without its place: a fixed command value first, then a word count,
else a data word (log 11). -/
def decodeCycleWord (v : Cell) : Instr :=
  match decodeCycle .command v with
  | .ok i => i
  | .reject _ => if v.toNat < 32 then .cycWbCount (v.extractLsb' 0 5) else .cycData v

/-- The decoder at the opcode table's numbering. The rows of format CYCLE are 16-bit bus values, the rows of format REQ
are selected by 8 bits of a request word, here of the default width AW = 32: `nbits` = 16 is read as a cycle, and no bits
at all as the one row without a fixed bit, CYC_DATA (log 11). -/
def decodeTableWord (nbits w : Nat) : Option Instr :=
  if nbits = 16 then some (decodeCycleWord (BitVec.ofNat 16 w))
  else if nbits = 0 then some (.cycData (BitVec.ofNat 16 w))
  else (decode Config.Params.default.aw w).toOption

/-! The encoder, from the same tables. -/

/-- The request word, 16+2*AW+16 bits: `op` bits 7:0, `kind` bits 9:8, bits 15:10 zero, then `a0`, `a1`, `d` (R100). -/
def packRequest (aw : Nat) (op : BitVec 8) (f : Fields) : Nat :=
  op.toNat + 2 ^ 8 * (f.kind.toNat + 2 ^ 8 * (f.a0 + 2 ^ aw * (f.a1 + 2 ^ aw * f.d.toNat)))

/-- An encoded instruction: a request word, or a bus value with the place it stands at. -/
inductive Encoded where
  | request (w : Nat)
  | cycle (p : CyclePlace) (v : Cell)
deriving DecidableEq, Repr

/-- The words of an instruction (R100, R102, R111). -/
def encode (aw : Nat) : Instr → Encoded
  | .init f => .request (packRequest aw Opcode.init f)
  | .write16 f => .request (packRequest aw Opcode.write16 f)
  | .read16 f => .request (packRequest aw Opcode.read16 f)
  | .unlock f => .request (packRequest aw Opcode.unlock f)
  | .reset f => .request (packRequest aw Opcode.reset f)
  | .poll f => .request (packRequest aw Opcode.poll f)
  | .getManufacturerId f => .request (packRequest aw Opcode.getManufacturerId f)
  | .getDeviceId f => .request (packRequest aw Opcode.getDeviceId f)
  | .readQueryField f => .request (packRequest aw Opcode.readQueryField f)
  | .getBlockSize f => .request (packRequest aw Opcode.getBlockSize f)
  | .query f => .request (packRequest aw Opcode.query f)
  | .wordProgram f => .request (packRequest aw Opcode.wordProgram f)
  | .eraseBlock f => .request (packRequest aw Opcode.eraseBlock f)
  | .writeBuffer f => .request (packRequest aw Opcode.writeBuffer f)
  | .readBuffer f => .request (packRequest aw Opcode.readBuffer f)
  | .cycUnlock1 => .cycle .command Config.unlock1Value
  | .cycUnlock2 => .cycle .command Config.unlock2Value
  | .cycReset => .cycle .command Config.resetValue
  | .cycIdEntry => .cycle .command Config.idEntryValue
  | .cycCfiEntry => .cycle .command Config.cfiEntryValue
  | .cycWordPgm => .cycle .command Config.wordPgmValue
  | .cycEraseSetup => .cycle .command Config.eraseSetupValue
  | .cycEraseConfirm => .cycle .command Config.eraseConfirmValue
  | .cycWbLoad => .cycle .command Config.wbLoadValue
  | .cycWbCount n => .cycle .count (n.zeroExtend 16)
  | .cycWbConfirm => .cycle .command Config.wbConfirmValue
  | .cycData v => .cycle .data v

/-- Decoding an encoded word of either format. -/
def decodeEncoded (aw : Nat) : Encoded → Decoded
  | .request w => decode aw w
  | .cycle p v => decodeCycle p v

/-- The encoder of a well-formed instruction only: an ill-formed one is refused. -/
def encodeWellFormed (aw : Nat) (i : Instr) : Option Encoded :=
  if i.wellFormed aw then some (encode aw i) else none

end Sys2Proof
end

