-- ==== Sys2Proof/Machine/State.lean ====
section
/-! DEFINITION. The state of NORSEQ (10_state.md), its environment (20_memory.md R75, 47_flash_device_environment.md
R331) and the two traces (00_scope.md R12), as plain data; the state after reset (R40). -/

namespace Sys2Proof.Machine

/-- STATUS[1:0] (10_state.md R32): 0, 1, 2, 3 in this order. -/
inductive Status where
  | success
  | timeout
  | unsupportedQuery
  | illegalRequest
deriving DecidableEq, Repr

/-- The three cycles of a reset sequence inside a phase: `X.RST.U1`, `X.RST.U2`, `X.RST.F0` (10_state.md R30). -/
inductive Rst where
  | u1
  | u2
  | f0
deriving DecidableEq, Repr

/-- The positions of the READ_QUERY_FIELD sequence (R30), which GET_BLOCK_SIZE runs twice. -/
inductive Rqf where
  | u1
  | u2
  | enter
  | cfi
  | read
  | rst (r : Rst)
deriving DecidableEq, Repr

/-- SEQ, the position inside the current operation (R29, R30): "it names the next event the block will perform".
`respond` is the position of the response step, which R13 counts as a step and R30 gives no name (log 3). -/
inductive Seq where
  | idle
  | faulted
  | respond (status : Status) (result : BitVec 64)
  | wrCyc
  | rdCyc
  | unlU1
  | unlU2
  | rst (r : Rst)
  | pollRd
  | midU1
  | midU2
  | midEnter
  | midRead
  | midRst (r : Rst)
  | didU1
  | didU2
  | didEnter
  | didRead
  | didExt1
  | didExt2
  | didRst (r : Rst)
  | rqf (p : Rqf)
  | gbsLow (p : Rqf)
  | gbsHigh (p : Rqf)
  | wpU1
  | wpU2
  | wpCmd
  | wpData
  | wpPoll
  | wpRst (r : Rst)
  | erRst0 (r : Rst)
  | erU1A
  | erU2A
  | erSetup
  | erU1B
  | erU2B
  | erConfirm
  | erPoll
  | erRst (r : Rst)
  | wbU1
  | wbU2
  | wbLoad
  | wbCount
  | wbSrc0
  | wbSrc1
  | wbData
  | wbConfirm
  | wbPoll
  | wbAbort (r : Rst)
  | wbRst (r : Rst)
  | rbCell
  | rbOut
deriving DecidableEq, Repr

/-- A request the requester offers: the packed word of R100, 16+2*AW+16 bits, and the source bytes that accompany a
WRITE_BUFFER (R75). -/
structure Request where
  word : Nat
  src : List Byte
deriving DecidableEq, Repr

/-- A host event (00_scope.md R11, R12): `Req(op, kind, a0, a1, d)`, `S(i, b)`, `T(i, b)`, `Resp(status, result)`. -/
inductive HostEvent where
  | req (op : BitVec 8) (kind : BitVec 2) (a0 a1 : Nat) (d : Cell)
  | src (i : Nat) (b : Byte)
  | dst (i : Nat) (b : Byte)
  | resp (status : Status) (result : BitVec 64)
deriving DecidableEq, Repr

/-- The two traces "interleaved in one total order" (R12). -/
inductive Event where
  | bus (e : BusEvent)
  | host (e : HostEvent)
deriving DecidableEq, Repr

/-- The bytes of the device's array: (address, byte) pairs, addresses strictly rising, no byte equal to what an unlisted
address reads as (`Memory.unlisted`, log 20). -/
abbrev Memory := List Host.Cell

/-- The modes of the reference responder (47_flash_device_environment.md R331). R331 names ERSU1 and ERSU2; no line of
R332 enters them. `astray` is the model's own: where R332 has RESP stop, until a reset (R324, R330; log 25). -/
inductive DevMode where
  | array
  | u1
  | u2
  | id
  | cfi
  | pgm
  | ers1
  | ersU1
  | ersU2
  | wbCnt
  | wbData
  | wbConf
  | astray
deriving DecidableEq, Repr

/-- How much of an unlock the latest bus writes were, whatever the mode: what makes a reset "from any state" (R324;
log 25). -/
inductive Heard where
  | nothing
  | first
  | both
deriving DecidableEq, Repr

/-- `back` of R331: the mode an unlock started from. -/
inductive UnlockFrom where
  | array
  | id
  | cfi
  | ers1
deriving DecidableEq, Repr

/-- How many reads are answered with a busy value: a number, or without end (`RESP_STUCK`, R334). -/
inductive Busy where
  | reads (n : Nat)
  | forever
deriving DecidableEq, Repr

/-- An entry of `pend` (R331): a cell to be committed, or every cell of an erased block (R332), which holds the bytes
`lo` to `lo + size - 1`. -/
inductive Pending where
  | cell (a : Nat) (v : Cell)
  | block (lo size : Nat)
deriving DecidableEq, Repr

/-- Which law answers the block's reads: the oracle of R320, or the reference responder of R331 to R334. -/
inductive DeviceLaw where
  | oracle
  | responder
deriving DecidableEq, Repr

/-- The flash device as environment (R37, R320, R331). Under the oracle law only `script` matters: the answers it gives
next; when it is exhausted `Config.deviceAnswer` answers (log 5). A responder gone astray answers so too. -/
structure Device where
  law : DeviceLaw
  script : List Cell
  arr : Memory
  mode : DevMode
  back : UnlockFrom
  busy : Busy
  pend : List Pending
  wbp : Nat
  wbn : Nat
  /-- How much of an unlock was heard last (R324). -/
  heard : Heard
  /-- The array is unconstrained (R330, U6), but for the ranges of `since`. -/
  lost : Bool
  /-- What was programmed or erased since the array was lost: (first byte, number of bytes). -/
  since : List (Nat × Nat)
  /-- How often the array was lost: the model's own counter of the free value `Config.unknownByte` (log 25). -/
  losses : Nat
  /-- `RBASE`. -/
  rbase : Nat
  /-- `RBLOCK`, in bytes. -/
  rblock : Nat
  /-- `BUSY`. -/
  busyReads : Busy
  idTab : List (Nat × Cell)
  cfiTab : List (Nat × Cell)
deriving DecidableEq, Repr

/-- The machine: the registers of 10_state.md, the configuration (00_scope.md R8), and the environment. A register that
holds an address, an offset or a length is a number below `2 ^ params.aw`, SIDX one below `2 ^ (params.aw + 1)`: every
step keeps them so (`InRange` in Safety.lean; log 1). -/
structure State where
  /-- BASE (R22). -/
  base : Nat
  /-- BASE_VALID (R23). -/
  baseValid : Bool
  /-- OP (R26). -/
  op : BitVec 8
  /-- KIND (R26). -/
  kind : BitVec 2
  /-- A0 (R26). -/
  a0 : Nat
  /-- A1 (R26). -/
  a1 : Nat
  /-- D (R26). -/
  d : Cell
  /-- PTGT (R27). -/
  ptgt : Nat
  /-- EXPECT (R27). -/
  expect : Cell
  /-- POLLCNT (R27, R28). -/
  pollCnt : BitVec 32
  /-- RDATA (R27). -/
  rdata : Cell
  /-- PADDR (R27). -/
  paddr : Nat
  /-- REM (R27). -/
  rem : Nat
  /-- BW (R27). -/
  bw : BitVec 6
  /-- WI (R27). -/
  wi : BitVec 6
  /-- SIDX (R27). -/
  sidx : Nat
  /-- WDATA (R27). -/
  wdata : Cell
  /-- IDACC (R27). -/
  idacc : BitVec 24
  /-- QLOW (R27). -/
  qlow : Cell
  /-- RIDX (R27). -/
  ridx : Nat
  /-- RCELL (R27). -/
  rcell : Nat
  /-- PRES (R27): true is 1, success. -/
  pres : Bool
  /-- SEQ (R29). -/
  seq : Seq
  /-- STATUS (R32). -/
  status : Status
  /-- RESULT (R33). -/
  result : BitVec 64
  /-- FAULTED (R34). -/
  faulted : Bool
  /-- The configuration (R8, R24; log 4). -/
  params : Config.Params
  /-- The requests the requester offers, oldest first (R107; log 9). -/
  requests : List Request
  /-- The source bytes of the accepted request (R75). -/
  srcBuf : List Byte
  /-- For each coming bus cycle: does the platform signal a bus fault (R364; log 7)? -/
  faultPort : List Bool
  /-- For each coming step: does the platform assert hardware reset (R400, R401; log 8)? -/
  resetPort : List Bool
  /-- The flash device (R37). -/
  device : Device
  /-- The bus and host traces, oldest event first (R12; log 19). -/
  trace : List Event
  /-- The model's own counter of free values drawn (log 16). -/
  draws : Nat
deriving DecidableEq, Repr

/-- Why the machine stops with a fault. -/
inductive Fault where
  /-- Raised by `step` and by every meaning in a state whose FAULTED flag is set, or whose SEQ is FAULTED: "the block
  takes no further step" (60_exceptions.md R364, 10_state.md R34). Safe: the spec's own stop. -/
  | busFault
deriving DecidableEq, Repr

/-- Why the machine gives an instruction no meaning. -/
inductive Refusal where
  /-- Raised by no meaning: kept for an instruction that is rejected by name in `exec`. Safe. -/
  | notModelled (mnemonic : String)
  /-- Raised by the meaning of a command cycle when SEQ does not stand at a position that emits it: the spec has the
  block emit each cycle only where R111 and R30 say. `step` never reaches it. Safe (log 14). -/
  | cycleOutOfSequence
deriving DecidableEq, Repr

/-- What a step or a meaning answers. -/
abbrev Result := Host.Outcome State Fault Refusal

/-- The device before anything is known of it: an oracle without a script (R40, R320). The responder's parameters are
those of the test vectors, and its registers, of which R331 gives `arr` alone an initial value, start in ARRAY with nothing
in progress: `mode` and `back` ARRAY, `busy` 0, `pend` empty, `wbp` and `wbn` 0 (DESIGN CHOICE, log 6). No unlock is
heard and the array is not lost (log 25). -/
def Device.unknown : Device where
  law := .oracle
  script := []
  arr := []
  mode := .array
  back := .array
  busy := .reads 0
  pend := []
  wbp := 0
  wbn := 0
  heard := .nothing
  lost := false
  since := []
  losses := 0
  rbase := 0x10000000
  rblock := 0x10000
  busyReads := .reads 0
  idTab := []
  cfiTab := []

/-- The state after hardware reset (R40, R400): SEQ = IDLE, BASE_VALID = 0, FAULTED = 0, STATUS = 0. Every register R40
calls unspecified holds zero (DESIGN CHOICE, log 2). Nothing is offered, nothing is signalled, no event has happened. -/
def State.reset : State where
  base := 0
  baseValid := false
  op := 0
  kind := 0
  a0 := 0
  a1 := 0
  d := 0
  ptgt := 0
  expect := 0
  pollCnt := 0
  rdata := 0
  paddr := 0
  rem := 0
  bw := 0
  wi := 0
  sidx := 0
  wdata := 0
  idacc := 0
  qlow := 0
  ridx := 0
  rcell := 0
  pres := false
  seq := .idle
  status := .success
  result := 0
  faulted := false
  params := Config.Params.default
  requests := []
  srcBuf := []
  faultPort := []
  resetPort := []
  device := Device.unknown
  trace := []
  draws := 0

end Sys2Proof.Machine
end

