-- ==== Sys2Proof/Machine/Operands.lean ====
section
/-! DEFINITION. Operand forms and value assembly: the closed list of computations of 30_encoding.md R113, the alignment
test of R68 and the byte order of R64, R65. All unsigned. -/

namespace Sys2Proof.Machine

/-- "A 16-bit cell address must be even" (20_memory.md R68). -/
def isEven (a : Nat) : Bool := a % 2 == 0

/-- `a +_AW b` (R11, R66): `(a + b) mod 2^AW`, "the only address addition". -/
def addAW (aw : Nat) (a b : Nat) : Nat := (a + b) % 2 ^ aw

/-- `a +_AW b` at the machine's own width. -/
def State.plus (s : State) (a b : Nat) : Nat := addAW s.params.aw a b

/-- `BASE +_AW offset` (R66). -/
def State.at (s : State) (offset : Nat) : Nat := s.plus s.base offset

/-- `A` with bit 0 cleared: the cell that holds byte address `A` (R300). -/
def cellOf (a : Nat) : Nat := a - a % 2

/-- Bits 7:0 of a cell. -/
def lowByte (v : Cell) : Byte := v.extractLsb' 0 8

/-- Bits 15:8 of a cell. -/
def highByte (v : Cell) : Byte := v.extractLsb' 8 8

/-- `hi ++ lo`: the byte of the lower index is bits 7:0 (R64). -/
def joinBytes (hi lo : Byte) : Cell := hi ++ lo

/-- The byte at address `a` of the cell that holds it: bits 7:0 when `a` is even, bits 15:8 when odd (R65). -/
def byteAt (a : Nat) (v : Cell) : Byte := if isEven a then lowByte v else highByte v

/-- `zext_64` of a cell (R102). -/
def resultOfCell (v : Cell) : BitVec 64 := v.zeroExtend 64

/-- `zext_64(BASE)` (R215); free where 64 bits do not hold BASE (log 1). -/
def resultOfBase (base : Nat) : BitVec 64 :=
  if base < 2 ^ 64 then BitVec.ofNat 64 base else Config.wideBaseResult base

/-- `(len + 1) >> 1`, without wrap (R113, R262). -/
def wordCount (len : Nat) : Nat := (len + 1) / 2

/-- `min(REM, 32)` (R260). -/
def blockWords (rem : Nat) : BitVec 6 := BitVec.ofNat 6 (min rem Config.wbPageWords)

/-- `block_words - 1`, the five bits of the word-count cycle (R111, R260). -/
def countField (bw : BitVec 6) : BitVec 5 := (bw - 1).truncate 5

/-- `PADDR +_AW 2*i`: word `i` of the page (R260). -/
def State.pageWord (s : State) (i : BitVec 6) : Nat := s.plus s.paddr (2 * i.toNat)

/-- The source index `n` further on, in the AW + 1 bits of SIDX (10_state.md R27). -/
def State.srcIndex (s : State) (i : Nat) (n : Nat) : Nat := addAW (s.params.aw + 1) i n

/-- `(low + 256 * high) * 256`, exact in 64 bits (R210, R211). -/
def blockSize (low high : Cell) : BitVec 64 := (low.zeroExtend 64 + 256 * high.zeroExtend 64) * 256

/-- The low byte says "extended ID follows" (R205): the test is on bits 7:0 only. -/
def isSentinel (v : Cell) : Bool := lowByte v == Config.extIdSentinel

/-- `IDACC <- zext_24(RDATA[7:0])` (R203). -/
def idLow (v : Cell) : BitVec 24 := (lowByte v).zeroExtend 24

/-- `IDACC[15:8] <- RDATA[7:0]` (R203). -/
def idMid (acc : BitVec 24) (v : Cell) : BitVec 24 :=
  acc.extractLsb' 16 8 ++ lowByte v ++ acc.extractLsb' 0 8

/-- `IDACC[23:16] <- RDATA[7:0]` (R203). -/
def idHigh (acc : BitVec 24) (v : Cell) : BitVec 24 := lowByte v ++ acc.extractLsb' 0 16

/-- The origin of the unlock inside WRITE_BUFFER (44_program_erase.md R261). -/
def State.wbOrigin (s : State) : Nat :=
  match s.params.wbUnlockOrigin with
  | .base => s.base
  | .page => s.paddr

/-- The query field READ_QUERY_FIELD's sequence reads: A0, or `SIZE_FIELD_OFFSET` when QUERY SizeBits runs it
(43_ident_query.md R207, R215). -/
def State.fieldOffset (s : State) : Nat :=
  if s.op = Opcode.query then s.params.sizeFieldOffset else s.a0

/-- The low field of GET_BLOCK_SIZE: A0, or `BLKSZ_LOW_OFFSET` when QUERY BlockSize runs it (R210, R215). -/
def State.lowOffset (s : State) : Nat :=
  if s.op = Opcode.query then s.params.blkszLowOffset else s.a0

/-- The high field of GET_BLOCK_SIZE: A1, or `BLKSZ_HIGH_OFFSET` when QUERY BlockSize runs it (R210, R215). -/
def State.highOffset (s : State) : Nat :=
  if s.op = Opcode.query then s.params.blkszHighOffset else s.a1

/-- `A` of READ_BUFFER: `BASE +_AW a0 +_AW RIDX` (R300). -/
def State.readByteAddr (s : State) : Nat := s.plus (s.at s.a0) s.ridx

end Sys2Proof.Machine
end

