-- ==== Sys2Proof/Machine/Memory.lean ====
section
/-! DEFINITION. The device's array as bytes (47_flash_device_environment.md R331) in one canonical form, and its
operations: read and write a byte, read and write a 16-bit cell (20_memory.md R64, R65), erase a range (R327). -/

namespace Sys2Proof.Machine

/-- What an unlisted address reads as: `arr` is "initially 0xFFFF everywhere" (R331; log 20). -/
def Memory.unlisted : Byte := 0xFF

/-- The canonical form: addresses strictly rising, no entry equal to what an unlisted address reads as. -/
abbrev Memory.wf (m : Memory) : Prop :=
  m.Pairwise (fun x y => x.1 < y.1) ∧ ∀ c ∈ m, c.2 ≠ Memory.unlisted

/-- The byte at an address. -/
def Memory.readByte : Memory → Nat → Byte
  | [], _ => Memory.unlisted
  | (k, b) :: m, a => if k = a then b else Memory.readByte m a

/-- Put a byte at its place, whatever the byte is. -/
def Memory.put (a : Nat) (b : Byte) : Memory → Memory
  | [] => [(a, b)]
  | (k, c) :: m =>
    if a < k then (a, b) :: (k, c) :: m
    else if a = k then (a, b) :: m
    else (k, c) :: Memory.put a b m

/-- Forget the bytes from `lo` to `lo + n - 1`: they read as erased. -/
def Memory.eraseRange (lo n : Nat) (m : Memory) : Memory :=
  m.filter (fun c => decide (c.1 < lo ∨ lo + n ≤ c.1))

/-- Write one byte, keeping the canonical form. -/
def Memory.writeByte (a : Nat) (b : Byte) (m : Memory) : Memory :=
  if b = Memory.unlisted then Memory.eraseRange a 1 m else Memory.put a b m

/-- The byte address of the cell that holds `a`. `arr` is a map from even addresses (R331). -/
def cellKey (a : Nat) : Nat := cellOf a

/-- `arr(a)`: the cell at `a`, its lower byte in bits 7:0 (R65). -/
def Memory.readCell (m : Memory) (a : Nat) : Cell :=
  joinBytes (Memory.readByte m (cellKey a + 1)) (Memory.readByte m (cellKey a))

/-- `arr(a) <- v` (R333). -/
def Memory.writeCell (a : Nat) (v : Cell) (m : Memory) : Memory :=
  Memory.writeByte (cellKey a + 1) (highByte v) (Memory.writeByte (cellKey a) (lowByte v) m)

end Sys2Proof.Machine
end

