-- ==== Sys2Proof/Machine/Device.lean ====
section
/-! DEFINITION. The flash device as the block sees it: how a bus write changes it and what it answers to a bus read. The
oracle of 47_flash_device_environment.md R320, and the reference responder of R331 to R334. -/

namespace Sys2Proof.Machine

/-- A table from even offset to value, default 0x0000 (R331). -/
def tableAt (t : List (Nat × Cell)) (offset : Nat) : Cell :=
  match t.find? (fun e => e.1 == offset) with
  | some e => e.2
  | none => 0

/-- The value one entry of `pend` holds for a cell, if any. -/
def Pending.valueAt (a : Nat) : Pending → Option Cell
  | .cell b v => if cellOf b = cellOf a then some v else none
  | .block lo size => if lo ≤ cellKey a ∧ cellKey a < lo + size then some Config.erasedCell else none

/-- "the value `pend` holds for `a` if any" (R333): of two entries for one cell the later one, as committing in order
leaves it (log 20). -/
def pendingAt (a : Nat) : List Pending → Option Cell
  | [] => none
  | p :: ps => (pendingAt a ps).orElse (fun _ => p.valueAt a)

/-- Write one entry of `pend` into the array: "no AND-ing of old and new bits" (R333). -/
def Pending.commit (m : Memory) : Pending → Memory
  | .cell a v => Memory.writeCell a v m
  | .block lo size => Memory.eraseRange lo size m

/-- The bytes an entry of `pend` writes: (first byte, number of bytes). -/
def Pending.range : Pending → Nat × Nat
  | .cell a _ => (cellKey a, 2)
  | .block lo size => (lo, size)

/-- A byte lies in one of these ranges. -/
def inRanges (rs : List (Nat × Nat)) (k : Nat) : Bool := rs.any (fun r => decide (r.1 ≤ k ∧ k < r.1 + r.2))

/-- The byte the array stores: the one written last, or after a malformed sequence the unknown one, until it is
programmed or erased anew (R326, R327, R330; log 25). -/
def Device.stored (dv : Device) (k : Nat) : Byte :=
  if dv.lost && !inRanges dv.since k then Config.unknownByte dv.losses k else Memory.readByte dv.arr k

/-- `arr(a)`: the stored cell, its lower byte in bits 7:0 (20_memory.md R65). -/
def Device.storedCell (dv : Device) (a : Nat) : Cell :=
  joinBytes (dv.stored (cellKey a + 1)) (dv.stored (cellKey a))

/-- No busy answer is left. -/
def Busy.isDone : Busy → Bool
  | .reads 0 => true
  | .reads (_ + 1) => false
  | .forever => false

/-- One busy answer fewer. -/
def Busy.pred : Busy → Busy
  | .reads n => .reads (n - 1)
  | .forever => .forever

/-- One entry of `pend` is written into the array: its bytes are known again (R326, R327, R333). -/
def Device.land (dv : Device) (p : Pending) : Device :=
  { dv with arr := p.commit dv.arr, since := if dv.lost then p.range :: dv.since else dv.since }

/-- "when `busy` reaches 0 ... every pair of `pend` is written into `arr` ... and `pend <- []`" (R333). -/
def Device.settle (dv : Device) : Device :=
  if dv.busy.isDone then { dv.pend.foldl Device.land dv with pend := [] } else dv

/-- Commit (R333): start the busy time; "at once if `BUSY = 0`". The mode after a commit is ARRAY (R332). -/
def Device.commit (dv : Device) : Device :=
  Device.settle { dv with busy := dv.busyReads, mode := .array }

/-- The offset `o = a - RBASE` (R332), modulo 2^AW. -/
def Device.offset (aw : Nat) (dv : Device) (a : Nat) : Nat := (a + (2 ^ aw - dv.rbase % 2 ^ aw)) % 2 ^ aw

/-- The write is the first cycle of an unlock. -/
def Device.isUnlock1 (aw : Nat) (dv : Device) (a : Nat) (v : Cell) : Bool :=
  decide (dv.offset aw a = Config.unlock1Offset ∧ lowByte v = lowByte Config.unlock1Value)

/-- The write is the second cycle of an unlock. -/
def Device.isUnlock2 (aw : Nat) (dv : Device) (a : Nat) (v : Cell) : Bool :=
  decide (dv.offset aw a = Config.unlock2Offset ∧ lowByte v = lowByte Config.unlock2Value)

/-- The write is 0xF0 at the base. -/
def Device.isReset (aw : Nat) (dv : Device) (a : Nat) (v : Cell) : Bool :=
  decide (dv.offset aw a = 0 ∧ lowByte v = lowByte Config.resetValue)

/-- The reset's effect (R324, R332, R334): read-array mode, and what was pending is dropped. -/
def Device.reset (dv : Device) : Device := { dv with mode := .array, busy := .reads 0, pend := [] }

/-- The device having heard so much of an unlock. -/
def Device.hearing (dv : Device) (h : Heard) : Device := { dv with heard := h }

/-- How much of an unlock has been heard after the write. -/
def Device.hear (aw : Nat) (dv : Device) (a : Nat) (v : Cell) : Heard :=
  if dv.isUnlock1 aw a v then .first
  else if dv.heard = .first ∧ dv.isUnlock2 aw a v = true then .both
  else .nothing

/-- An unlock begins in `back` (R332, the line of ARRAY, ID, CFI, ERS1): first unlock cycle. Any other write there is
malformed. -/
def Device.unlockFrom (aw : Nat) (dv : Device) (b : UnlockFrom) (a : Nat) (v : Cell) : Option Device :=
  if dv.isUnlock1 aw a v then some { dv with back := b, mode := .u1 } else none

/-- A command after both unlock cycles (R332, the lines of U2), the first that applies. -/
def Device.command (aw : Nat) (dv : Device) (a : Nat) (v : Cell) : Option Device :=
  let o := dv.offset aw a
  let c := lowByte v
  if dv.isReset aw a v then some dv.reset
  else if dv.back = .ers1 then
    if c = lowByte Config.eraseConfirmValue then
      some (Device.commit
        { dv with pend := dv.pend ++ [.block (a / dv.rblock * dv.rblock) dv.rblock] })
    else none
  else if o = Config.cmdOffset ∧ c = lowByte Config.idEntryValue then some { dv with mode := .id }
  else if o = Config.cmdOffset ∧ c = lowByte Config.wordPgmValue then some { dv with mode := .pgm }
  else if o = Config.cmdOffset ∧ c = lowByte Config.eraseSetupValue then some { dv with mode := .ers1 }
  else if c = lowByte Config.wbLoadValue then some { dv with wbp := a, mode := .wbCnt }
  else none

/-- The responder on a write (R332); none where `RESP` stops. -/
def Device.respWrite (aw : Nat) (dv : Device) (a : Nat) (v : Cell) : Option Device :=
  match dv.mode with
  | .wbCnt => if a = dv.wbp then some { dv with wbn := v.toNat + 1, mode := .wbData } else none
  | .wbData =>
    if 0 < dv.wbn then
      some { dv with
        pend := dv.pend ++ [.cell a v]
        wbn := dv.wbn - 1
        mode := if dv.wbn - 1 = 0 then .wbConf else .wbData }
    else none
  | .wbConf =>
    if a = dv.wbp ∧ lowByte v = lowByte Config.wbConfirmValue then some (Device.commit dv) else none
  | .pgm => some (Device.commit { dv with pend := [.cell a v] })
  | .array => dv.unlockFrom aw .array a v
  | .id =>
    if dv.offset aw a = Config.cfiEntryOffset ∧ lowByte v = lowByte Config.cfiEntryValue then
      some { dv with mode := .cfi }
    else dv.unlockFrom aw .id a v
  | .cfi => dv.unlockFrom aw .cfi a v
  | .ers1 => dv.unlockFrom aw .ers1 a v
  | .u1 => if dv.isUnlock2 aw a v then some { dv with mode := .u2 } else none
  | .u2 => dv.command aw a v
  | .ersU1 => none
  | .ersU2 => none
  | .astray => none

/-- The array is unconstrained from here on (R330, U6). -/
def Device.loseArray (dv : Device) : Device :=
  { dv with lost := true, since := [], losses := dv.losses + 1, arr := [] }

/-- An unlock cycle of a reset where R332 has no line for it: it begins afresh after a whole unlock, as RESET after
UNLOCK does (70_reset_and_hazards.md R414), or in "an in-flight buffered program" (R324), or it is the second cycle of
such an unlock. These are the sequences of 41_unlock_reset.md, not malformed ones (log 25). -/
def Device.restarts (aw : Nat) (dv : Device) (a : Nat) (v : Cell) : Bool :=
  (decide (dv.heard = .both ∨ dv.mode = .wbCnt ∨ dv.mode = .wbConf) && dv.busy.isDone && dv.isUnlock1 aw a v) ||
    (decide (dv.heard = .first ∧ (dv.mode = .astray ∨ dv.mode = .wbConf)) && dv.isUnlock2 aw a v)

/-- A write at which `RESP` stops: the device's answers are unconstrained until a reset, and its array too, and the array
stays so after it, unless the write only starts an unlock afresh (R330, U6; log 25). -/
def Device.stray (aw : Nat) (dv : Device) (a : Nat) (v : Cell) : Device :=
  let t := { dv with mode := .astray, busy := .reads 0, pend := [] }
  if dv.restarts aw a v then t else t.loseArray

/-- The device after a bus write. An oracle keeps no state of its own: its answers depend on the trace. Of the responder,
"unlock followed by 0xF0 written to the base returns the chip to read-array mode from any state" (R324); any other write
is R332's. -/
def Device.write (aw : Nat) (dv : Device) (a : Nat) (v : Cell) : Device :=
  match dv.law with
  | .oracle => dv
  | .responder =>
    if dv.heard = .both ∧ dv.isReset aw a v = true then dv.reset.hearing .nothing
    else ((dv.respWrite aw a v).getD (dv.stray aw a v)).hearing (dv.hear aw a v)

/-- `final(a)` (R333). -/
def Device.final (dv : Device) (a : Nat) : Cell :=
  match pendingAt a dv.pend with
  | some v => v
  | none => dv.storedCell a

/-- What the responder answers to a read (R333). -/
def Device.respAnswer (aw : Nat) (dv : Device) (a : Nat) : Cell :=
  if dv.busy.isDone then
    if dv.mode = .id then tableAt dv.idTab (dv.offset aw a)
    else if dv.mode = .cfi then tableAt dv.cfiTab (dv.offset aw a)
    else dv.storedCell a
  else dv.final a ^^^ 0x0080

/-- The device's answers are unconstrained: an oracle's always (R320), a responder's while it is astray (R330). -/
def Device.isFree (dv : Device) : Bool :=
  match dv.law with
  | .oracle => true
  | .responder => decide (dv.mode = .astray)

/-- An unconstrained answer after the bus trace `bt`: the next of the script, then a free one (R320; log 5). -/
def Device.freeAnswer (dv : Device) (bt : List BusEvent) (a : Nat) : Cell :=
  match dv.script with
  | [] => Config.deviceAnswer bt a
  | v :: _ => v

/-- The answer to a bus read after the bus trace `bt` (R320, R330, R333). -/
def Device.answer (aw : Nat) (dv : Device) (bt : List BusEvent) (a : Nat) : Cell :=
  if dv.isFree then dv.freeAnswer bt a else dv.respAnswer aw a

/-- The device after a bus read: a scripted answer is used up; the responder counts its busy answers (R333). -/
def Device.afterRead (dv : Device) : Device :=
  if dv.isFree then { dv with script := dv.script.tail }
  else if dv.busy.isDone then dv
  else Device.settle { dv with busy := dv.busy.pred }

end Sys2Proof.Machine
end

