-- ==== Sys2Proof/Machine/Flags.lean ====
section
/-! DEFINITION. STATUS, FAULTED, PRES and the equality test: the block's only flags (10_state.md R32, R34, R35). -/

namespace Sys2Proof.Machine

/-- The two bits of STATUS (R32). -/
def Status.code : Status → BitVec 2
  | .success => 0
  | .timeout => 1
  | .unsupportedQuery => 2
  | .illegalRequest => 3

/-- The status a poll's outcome gives: PRES = 1 success, 0 timeout (10_state.md R27, 60_exceptions.md R361). -/
def pollStatus (pres : Bool) : Status := if pres then .success else .timeout

/-- `RDATA == EXPECT`, "of all 16 bits" (42_poll.md R181). -/
def State.pollEqual (s : State) : Bool := s.rdata == s.expect

/-- `POLLCNT == POLL_CEILING` (R181). -/
def State.pollExhausted (s : State) : Bool := s.pollCnt == s.params.pollCeiling

/-- A request can be accepted (30_encoding.md R107). -/
def State.accepting (s : State) : Bool := decide (s.seq = .idle) && !s.faulted

/-- The block is stopped by a bus fault (10_state.md R34). -/
def State.stopped (s : State) : Bool := s.faulted || decide (s.seq = .faulted)

end Sys2Proof.Machine
end

