-- ==== Sys2Proof/Machine/Ops.lean ====
section
/-! DEFINITION. The named operations of NORSEQ over its registers, its bus, its streams and its traces (00_scope.md R11):
bus cycles, source and destination bytes, the response, acceptance and admission of a request (30_encoding.md R107,
R108), and the error entries (60_exceptions.md R363, R364). -/

namespace Sys2Proof.Machine

/-- `SEQ <- q` (R11). -/
def State.goTo (q : Seq) (s : State) : State := { s with seq := q }

/-- The bus trace (R12): the bus events in order. -/
def busEvents : List Event → List BusEvent
  | [] => []
  | .bus e :: es => e :: busEvents es
  | .host _ :: es => busEvents es

/-- The host trace (R12): the host events in order. -/
def hostEvents : List Event → List HostEvent
  | [] => []
  | .bus _ :: es => hostEvents es
  | .host e :: es => e :: hostEvents es

/-- The bus trace of a state. -/
def State.busTrace (s : State) : List BusEvent := busEvents s.trace

/-- The host trace of a state. -/
def State.hostTrace (s : State) : List HostEvent := hostEvents s.trace

/-- An event is appended to the trace. -/
def State.log (e : Event) (s : State) : State := { s with trace := s.trace ++ [e] }

/-- `respond(status, result)` is the next event: SEQ goes to the response position (log 3). Every error that ends an
operation, and every success, leaves through here. -/
def State.reply (st : Status) (res : BitVec 64) (s : State) : State := s.goTo (.respond st res)

/-- The response step (R11, R104): write STATUS and RESULT, emit `Resp`, `SEQ <- IDLE`. -/
def State.respond (st : Status) (res : BitVec 64) (s : State) : State :=
  { s with status := st, result := res, seq := .idle, trace := s.trace ++ [.host (.resp st res)] }

/-! Bus cycles. -/

/-- Does the platform signal a bus fault for the coming cycle (60_exceptions.md R364)? An exhausted list is a platform
that signals none (log 7). -/
def State.busFaulting (s : State) : Bool := s.faultPort.headD false

/-- Taking a bus fault (R364), the one entry that stops the block: `FAULTED <- 1`, `SEQ <- FAULTED`; nothing is saved,
no vector, no response. -/
def State.raiseBusFault (s : State) : State := { s with faulted := true, seq := .faulted }

/-- The fault indication of one bus cycle is used up; if it was set the fault is taken. -/
def State.endCycle (s : State) : State :=
  let t := { s with faultPort := s.faultPort.tail }
  if s.busFaulting then t.raiseBusFault else t

/-- `Wr16(addr, v)` (R11, 20_memory.md R60, R61, R70): one bus write, seen by the device and by the bus trace; "that
cycle's event is still appended" when it faults (R364). -/
def State.busWrite (a : Nat) (v : Cell) (s : State) : State :=
  State.endCycle { s with
    trace := s.trace ++ [.bus (.w a v)]
    device := s.device.write s.params.aw a v }

/-- What a bus read returns: the device's answer after the bus trace so far (R320), or "an unspecified value", the next
free one, when the cycle faults (R364; log 16). -/
def State.readValue (a : Nat) (s : State) : Cell :=
  if s.busFaulting then Config.freeCell s.draws else s.device.answer s.params.aw s.busTrace a

/-- `RDATA <- Rd16(addr)` (R11, 10_state.md R27): one bus read. -/
def State.busRead (a : Nat) (s : State) : State :=
  State.endCycle { s with
    rdata := s.readValue a
    trace := s.trace ++ [.bus (.r a (s.readValue a))]
    device := s.device.afterRead
    draws := if s.busFaulting then s.draws + 1 else s.draws }

/-! The requester's streams. -/

/-- The value of `SrcByte(i)` (R11, R75): the requester's byte, or the next free byte where its buffer is not known at
that index (44_program_erase.md R262; log 15). -/
def State.srcByte (i : Nat) (s : State) : Byte :=
  match s.srcBuf[i]? with
  | some b => b
  | none => Config.freeByte s.draws

/-- The fetch of source byte `i`: its event, and a free value drawn where the buffer is not known. -/
def State.fetchSrc (i : Nat) (s : State) : State :=
  { s with
    trace := s.trace ++ [.host (.src i (s.srcByte i))]
    draws := if i < s.srcBuf.length then s.draws else s.draws + 1 }

/-- `DstByte(i) <- b` (R11): one byte delivered. -/
def State.deliver (i : Nat) (b : Byte) (s : State) : State :=
  s.log (.host (.dst i b))

/-! Requests. -/

/-- Acceptance (R107, 10_state.md R26): latch the five fields and emit `Req`. -/
def State.accept (op : BitVec 8) (f : Fields) (s : State) : State :=
  { s with
    op := op
    kind := f.kind
    a0 := f.a0
    a1 := f.a1
    d := f.d
    trace := s.trace ++ [.host (.req op f.kind f.a0 f.a1 f.d)] }

/-- `ILLEGAL_REQUEST` (60_exceptions.md R363): raised before any bus cycle. -/
def State.rejectRequest (s : State) : State := s.reply .illegalRequest 0

/-- A request presented to the block: stopped by a bus fault it takes no step (R364); busy it does not accept, "and is
not stored" (R107; log 14); idle it accepts, then does the admission checks of R108, and starts or rejects. -/
def request (op : BitVec 8) (f : Fields) (admits : State → Bool) (start : State → State) (s : State) : Result :=
  if s.stopped then .fault .busFault
  else if s.accepting then
    let t := s.accept op f
    if admits t then .next (start t) else .next t.rejectRequest
  else .next s

/-- R109: an operation code outside the table is accepted and answered `ILLEGAL_REQUEST`. -/
def illegalRequest (op : BitVec 8) (f : Fields) (s : State) : Result :=
  request op f (fun _ => false) id s

/-! The admission checks (2) to (4) of R108, over the latched operands. -/

/-- (2): INIT once, with an even base. -/
def admitsInit (s : State) : Bool := !s.baseValid && isEven s.a0

/-- (4) alone: WRITE16, READ16 and POLL take an absolute address and are legal before INIT. -/
def admitsAddress (s : State) : Bool := isEven s.a0

/-- (3) alone: the operation needs BASE and names no cell. -/
def admitsBase (s : State) : Bool := s.baseValid

/-- (3), then (4) on A0. -/
def admitsOffset (s : State) : Bool := s.baseValid && isEven s.a0

/-- (3), then (4) on A0 and A1 (GET_BLOCK_SIZE). -/
def admitsOffsets (s : State) : Bool := s.baseValid && (isEven s.a0 && isEven s.a1)

/-! Hardware reset. -/

/-- Hardware reset (70_reset_and_hazards.md R400 to R402): the registers take their reset values and the block makes no
bus cycle; the device is not reset; what is outside the block (the requests offered, the platform's ports, the traces)
and the configuration stay. The reset values of the unspecified registers are those of `State.reset` (log 2, log 22). -/
def State.hardwareReset (s : State) : State :=
  { State.reset with
    params := s.params
    requests := s.requests
    faultPort := s.faultPort
    resetPort := s.resetPort
    device := s.device
    trace := s.trace
    draws := s.draws }

end Sys2Proof.Machine
end

