-- ==== Sys2Proof/Machine/Sequencer.lean ====
section
/-! DEFINITION. How SEQ advances (10_state.md R30, R31): the micro-sequences `ResetSeq` (41_unlock_reset.md R163) and
`Poll` (42_poll.md R181), the READ_QUERY_FIELD sequence (43_ident_query.md R207), the page loop of WRITE_BUFFER
(44_program_erase.md R260) and the byte loop of READ_BUFFER (45_read_path.md R300); which event each position performs. -/

namespace Sys2Proof.Machine

/-- The next position of a reset sequence inside a phase (R163): U1, U2, F0, then `done`. -/
def rstNext (phase : Rst → Seq) (done : State → State) (r : Rst) (s : State) : State :=
  match r with
  | .u1 => s.goTo (phase .u2)
  | .u2 => s.goTo (phase .f0)
  | .f0 => done s

/-- The next position of the READ_QUERY_FIELD sequence (R207): the trailing reset is taken when
`TRAILING_RESET_UNLISTED` (R208). -/
def rqfNext (phase : Rqf → Seq) (done : State → State) (p : Rqf) (s : State) : State :=
  match p with
  | .u1 => s.goTo (phase .u2)
  | .u2 => s.goTo (phase .enter)
  | .enter => s.goTo (phase .cfi)
  | .cfi => s.goTo (phase .read)
  | .read => if s.params.trailingResetUnlisted then s.goTo (phase (.rst .u1)) else done s
  | .rst r => rstNext (fun q => phase (.rst q)) done r s

/-! The page loop of WRITE_BUFFER (R260). -/

/-- The head of `while REM > 0`: open the next page, or finish, with the trailing reset of R264. -/
def wbNextPage (s : State) : State :=
  if s.rem = 0 then
    if s.params.trailingResetUnlisted then s.goTo (.wbRst .u1) else s.reply .success 0
  else { s with bw := blockWords s.rem, seq := .wbU1 }

/-- The foot of the loop: `PADDR <- PADDR + 2*BW`, `REM <- REM - BW`. -/
def wbPageDone (s : State) : State :=
  wbNextPage { s with paddr := s.pageWord s.bw, rem := s.rem - s.bw.toNat }

/-- After a data write: next word, or the confirm cycle (R260). -/
def wbWordDone (s : State) : State :=
  let t := { s with wi := s.wi + 1 }
  if t.wi = t.bw then t.goTo .wbConfirm else t.goTo .wbSrc0

/-! The poll loop (R181). The position says who polls: POLL, WORD_PROGRAM, ERASE_BLOCK or WRITE_BUFFER. -/

/-- `PRES` is written and the poller returns to its caller: POLL responds (R183); WORD_PROGRAM and ERASE_BLOCK reset on
either outcome (R240, R250); WRITE_BUFFER goes on, or aborts with a reset (R260, R263). -/
def pollReturn (ok : Bool) (s : State) : State :=
  let t := { s with pres := ok }
  match s.seq with
  | .wpPoll => t.goTo (.wpRst .u1)
  | .erPoll => t.goTo (.erRst .u1)
  | .wbPoll => if ok then wbPageDone t else t.goTo (.wbAbort .u1)
  | _ => t.reply (pollStatus ok) 0

/-- The head of the loop: the bound "is tested before each read". -/
def pollTest (s : State) : State := if s.pollExhausted then pollReturn false s else s

/-- `Poll(kind, addr, expected)`: `kind` is ignored (R182). -/
def pollStart (site : Seq) (a : Nat) (v : Cell) (s : State) : State :=
  pollTest { s with ptgt := a, expect := v, pollCnt := 0, seq := site }

/-- After a poll read: count it, then compare all 16 bits. -/
def pollAfterRead (s : State) : State :=
  let t := { s with pollCnt := s.pollCnt + 1 }
  if t.pollEqual then pollReturn true t else pollTest t

/-! The byte loop of READ_BUFFER (R300). -/

/-- The head of `while RIDX != a1`: finish, read the cell that holds the next byte, or deliver from the cell held. -/
def rbNext (s : State) : State :=
  if s.ridx = s.a1 then s.reply .success 0
  else if s.ridx = 0 ∨ cellOf s.readByteAddr ≠ s.rcell then s.goTo .rbCell
  else s.goTo .rbOut

/-! The command cycles (30_encoding.md R111). -/

/-- The cycle a position emits, if it is the position of a command cycle (R30, R111 "emitted in"). -/
inductive CycleKind where
  | unlock1
  | unlock2
  | reset
  | idEntry
  | cfiEntry
  | wordPgm
  | eraseSetup
  | eraseConfirm
  | wbLoad
  | wbCount
  | wbConfirm
  | data
deriving DecidableEq, Repr

/-- The cycles of a reset sequence (R163). -/
def Rst.cycle : Rst → CycleKind
  | .u1 => .unlock1
  | .u2 => .unlock2
  | .f0 => .reset

/-- The cycles of the READ_QUERY_FIELD sequence (R207); its read is no command cycle. -/
def Rqf.cycle : Rqf → Option CycleKind
  | .u1 => some .unlock1
  | .u2 => some .unlock2
  | .enter => some .idEntry
  | .cfi => some .cfiEntry
  | .read => none
  | .rst r => some r.cycle

/-- Which command cycle SEQ names, if any. -/
def Seq.cycle : Seq → Option CycleKind
  | .idle => none
  | .faulted => none
  | .respond _ _ => none
  | .wrCyc => none
  | .rdCyc => none
  | .unlU1 => some .unlock1
  | .unlU2 => some .unlock2
  | .rst r => some r.cycle
  | .pollRd => none
  | .midU1 => some .unlock1
  | .midU2 => some .unlock2
  | .midEnter => some .idEntry
  | .midRead => none
  | .midRst r => some r.cycle
  | .didU1 => some .unlock1
  | .didU2 => some .unlock2
  | .didEnter => some .idEntry
  | .didRead => none
  | .didExt1 => none
  | .didExt2 => none
  | .didRst r => some r.cycle
  | .rqf p => p.cycle
  | .gbsLow p => p.cycle
  | .gbsHigh p => p.cycle
  | .wpU1 => some .unlock1
  | .wpU2 => some .unlock2
  | .wpCmd => some .wordPgm
  | .wpData => some .data
  | .wpPoll => none
  | .wpRst r => some r.cycle
  | .erRst0 r => some r.cycle
  | .erU1A => some .unlock1
  | .erU2A => some .unlock2
  | .erSetup => some .eraseSetup
  | .erU1B => some .unlock1
  | .erU2B => some .unlock2
  | .erConfirm => some .eraseConfirm
  | .erPoll => none
  | .erRst r => some r.cycle
  | .wbU1 => some .unlock1
  | .wbU2 => some .unlock2
  | .wbLoad => some .wbLoad
  | .wbCount => some .wbCount
  | .wbSrc0 => none
  | .wbSrc1 => none
  | .wbData => some .data
  | .wbConfirm => some .wbConfirm
  | .wbPoll => none
  | .wbAbort r => some r.cycle
  | .wbRst r => some r.cycle
  | .rbCell => none
  | .rbOut => none

/-- The unlock's origin at a position: BASE, but inside a page of WRITE_BUFFER by `WB_UNLOCK_ORIGIN` (R160, R261). -/
def State.unlockOrigin (s : State) : Nat :=
  if s.seq = .wbU1 ∨ s.seq = .wbU2 then s.wbOrigin else s.base

/-- The address of a data cycle: the target of WORD_PROGRAM (R240), or word WI of the page (R260). -/
def State.dataAddr (s : State) : Nat :=
  if s.seq = .wbData then s.pageWord s.wi else s.at s.a0

/-- The data word of a data cycle: D of WORD_PROGRAM (R240), or WDATA of WRITE_BUFFER (R260). -/
def State.dataWord (s : State) : Cell :=
  if s.seq = .wbData then s.wdata else s.d

/-- The instruction SEQ names, if it names a command cycle: SEQ is "the analogue of a program counter" (R29), and this
is the fetch at it. -/
def State.cycleInstr (s : State) : Option Instr :=
  match s.seq.cycle with
  | none => none
  | some .unlock1 => some .cycUnlock1
  | some .unlock2 => some .cycUnlock2
  | some .reset => some .cycReset
  | some .idEntry => some .cycIdEntry
  | some .cfiEntry => some .cycCfiEntry
  | some .wordPgm => some .cycWordPgm
  | some .eraseSetup => some .cycEraseSetup
  | some .eraseConfirm => some .cycEraseConfirm
  | some .wbLoad => some .cycWbLoad
  | some .wbCount => some (.cycWbCount (countField s.bw))
  | some .wbConfirm => some .cycWbConfirm
  | some .data => some (.cycData s.dataWord)

/-! Advancing. -/

/-- SEQ after the event at the current position has happened without a bus fault (R30, R31), with the register writes
and the decisions "in zero steps between two events" that come with it. -/
def advance (s : State) : State :=
  match s.seq with
  | .idle => s
  | .faulted => s
  | .respond _ _ => s
  | .wrCyc => s.reply .success 0
  | .rdCyc => s.reply .success (resultOfCell s.rdata)
  | .unlU1 => s.goTo .unlU2
  | .unlU2 => s.reply .success 0
  | .rst r => rstNext .rst (State.reply .success 0) r s
  | .pollRd => pollAfterRead s
  | .midU1 => s.goTo .midU2
  | .midU2 => s.goTo .midEnter
  | .midEnter => s.goTo .midRead
  | .midRead => s.goTo (.midRst .u1)
  | .midRst r => rstNext .midRst (State.reply .success (resultOfCell s.rdata)) r s
  | .didU1 => s.goTo .didU2
  | .didU2 => s.goTo .didEnter
  | .didEnter => s.goTo .didRead
  | .didRead =>
    let t := { s with idacc := idLow s.rdata }
    if isSentinel s.rdata then t.goTo .didExt1 else t.goTo (.didRst .u1)
  | .didExt1 => State.goTo .didExt2 { s with idacc := idMid s.idacc s.rdata }
  | .didExt2 => State.goTo (.didRst .u1) { s with idacc := idHigh s.idacc s.rdata }
  | .didRst r => rstNext .didRst (State.reply .success (s.idacc.zeroExtend 64)) r s
  | .rqf p => rqfNext .rqf (State.reply .success (resultOfCell s.rdata)) p s
  | .gbsLow p => rqfNext .gbsLow (fun t => State.goTo (.gbsHigh .u1) { t with qlow := t.rdata }) p s
  | .gbsHigh p => rqfNext .gbsHigh (State.reply .success (blockSize s.qlow s.rdata)) p s
  | .wpU1 => s.goTo .wpU2
  | .wpU2 => s.goTo .wpCmd
  | .wpCmd => s.goTo .wpData
  | .wpData => pollStart .wpPoll (s.at s.a0) s.wdata s
  | .wpPoll => pollAfterRead s
  | .wpRst r => rstNext .wpRst (State.reply (pollStatus s.pres) 0) r s
  | .erRst0 r => rstNext .erRst0 (State.goTo .erU1A) r s
  | .erU1A => s.goTo .erU2A
  | .erU2A => s.goTo .erSetup
  | .erSetup => s.goTo .erU1B
  | .erU1B => s.goTo .erU2B
  | .erU2B => s.goTo .erConfirm
  | .erConfirm => pollStart .erPoll (s.at s.a0) Config.erasedCell s
  | .erPoll => pollAfterRead s
  | .erRst r => rstNext .erRst (State.reply (pollStatus s.pres) 0) r s
  | .wbU1 => s.goTo .wbU2
  | .wbU2 => s.goTo .wbLoad
  | .wbLoad => s.goTo .wbCount
  | .wbCount => State.goTo .wbSrc0 { s with wi := 0 }
  | .wbSrc0 => s.goTo .wbSrc1
  | .wbSrc1 => s.goTo .wbData
  | .wbData => wbWordDone s
  | .wbConfirm => pollStart .wbPoll (s.pageWord (s.bw - 1)) s.wdata s
  | .wbPoll => pollAfterRead s
  | .wbAbort r => rstNext .wbAbort (State.reply .timeout 0) r s
  | .wbRst r => rstNext .wbRst (State.reply .success 0) r s
  | .rbCell => State.goTo .rbOut { s with rcell := cellOf s.readByteAddr }
  | .rbOut => rbNext s

/-- After a bus cycle: SEQ advances, but for a bus fault, after which "the block takes no further step" (R364). -/
def afterCycle (s : State) : Result := .next (if s.faulted then s else advance s)

/-- The meaning of a command cycle: at a position that emits it, one bus write, and SEQ advances. Elsewhere the spec has
the block emit no such cycle (R111; log 14). -/
def emitCycle (k : CycleKind) (a : State → Nat) (v : Cell) (s : State) : Result :=
  if s.stopped then .fault .busFault
  else if s.seq.cycle = some k then afterCycle (s.busWrite (a s) v)
  else .refused .cycleOutOfSequence

/-! The events that are no row of the opcode table. -/

/-- The write of WRITE16 (R143): all 16 bits of D at A0. -/
def stepWrite16 (s : State) : Result := afterCycle (s.busWrite s.a0 s.d)

/-- A bus read at `a`: `RDATA <- Rd16(a)`, then SEQ advances. -/
def stepRead (a : Nat) (s : State) : Result := afterCycle (s.busRead a)

/-- `lo <- SrcByte(SIDX)`: the byte waits in WDATA[7:0], "data word being assembled" (R260, R27; log 17). -/
def stepSrcLow (s : State) : Result :=
  .next (advance (State.fetchSrc s.sidx { s with wdata := joinBytes (highByte s.wdata) (s.srcByte s.sidx) }))

/-- `hi <- SrcByte(SIDX + 1) ; SIDX <- SIDX + 2 ; WDATA <- hi ++ lo` (R260). -/
def stepSrcHigh (s : State) : Result :=
  .next (advance (State.fetchSrc (s.srcIndex s.sidx 1)
    { s with
      wdata := joinBytes (s.srcByte (s.srcIndex s.sidx 1)) (lowByte s.wdata)
      sidx := s.srcIndex s.sidx 2 }))

/-- `DstByte(RIDX) <- b ; RIDX <- RIDX + 1` (R300). -/
def stepDeliver (s : State) : Result :=
  .next (advance (State.deliver s.ridx (byteAt s.readByteAddr s.rdata) { s with ridx := s.plus s.ridx 1 }))

/-- The response step (R13, R104). -/
def stepRespond (st : Status) (res : BitVec 64) (s : State) : Result := .next (s.respond st res)

/-- The event of a position that emits no command cycle. The positions of command cycles, and IDLE and FAULTED, which
`step` treats before, change nothing here. -/
def stepOther (s : State) : Result :=
  match s.seq with
  | .respond st res => stepRespond st res s
  | .wrCyc => stepWrite16 s
  | .rdCyc => stepRead s.a0 s
  | .pollRd => stepRead s.ptgt s
  | .midRead => stepRead (s.at s.params.mfrCellOffset) s
  | .didRead => stepRead (s.at s.params.devCellOffset) s
  | .didExt1 => stepRead (s.at Config.extId1Offset) s
  | .didExt2 => stepRead (s.at Config.extId2Offset) s
  | .rqf .read => stepRead (s.at s.fieldOffset) s
  | .gbsLow .read => stepRead (s.at s.lowOffset) s
  | .gbsHigh .read => stepRead (s.at s.highOffset) s
  | .wpPoll => stepRead s.ptgt s
  | .erPoll => stepRead s.ptgt s
  | .wbPoll => stepRead s.ptgt s
  | .wbSrc0 => stepSrcLow s
  | .wbSrc1 => stepSrcHigh s
  | .rbCell => stepRead (cellOf s.readByteAddr) s
  | .rbOut => stepDeliver s
  | _ => .next s

end Sys2Proof.Machine
end

