-- ==== Sys2Proof/Machine/Access.lean ====
section
/-! DEFINITION. INIT and the register access layer: WRITE16, READ16 (40_access_init.md). Each meaning is the acceptance
step; the operation's events follow one a step, as SEQ names them. -/

namespace Sys2Proof.Machine

/-- INIT (R140): `BASE <- a0`, `BASE_VALID <- 1`, no bus cycle (log 18). -/
def execInit (f : Fields) (s : State) : Result :=
  request Opcode.init f admitsInit
    (fun t => State.reply .success 0 { t with base := t.a0, baseValid := true }) s

/-- WRITE16 (R143): one bus write of D at A0. -/
def execWrite16 (f : Fields) (s : State) : Result :=
  request Opcode.write16 f admitsAddress (State.goTo .wrCyc) s

/-- READ16 (R145): one bus read at A0. -/
def execRead16 (f : Fields) (s : State) : Result :=
  request Opcode.read16 f admitsAddress (State.goTo .rdCyc) s

end Sys2Proof.Machine
end

