-- ==== Sys2Proof/Machine/Cycles.lean ====
section
/-! DEFINITION. The twelve flash command cycles (30_encoding.md R111): one bus write each, at the address R111 gives,
when SEQ stands at a position that emits it. -/

namespace Sys2Proof.Machine

/-- CYC_UNLOCK1 (R160): 0xAA at origin + 0xAAA. -/
def execCycUnlock1 (s : State) : Result :=
  emitCycle .unlock1 (fun t => t.plus t.unlockOrigin Config.unlock1Offset) Config.unlock1Value s

/-- CYC_UNLOCK2 (R160): 0x55 at origin + 0x554. -/
def execCycUnlock2 (s : State) : Result :=
  emitCycle .unlock2 (fun t => t.plus t.unlockOrigin Config.unlock2Offset) Config.unlock2Value s

/-- CYC_RESET (R163): 0xF0 at the base itself. -/
def execCycReset (s : State) : Result :=
  emitCycle .reset (fun t => t.base) Config.resetValue s

/-- CYC_ID_ENTRY (R200): 0x90 at BASE + 0xAAA. -/
def execCycIdEntry (s : State) : Result :=
  emitCycle .idEntry (fun t => t.at Config.cmdOffset) Config.idEntryValue s

/-- CYC_CFI_ENTRY (R207): 0x98 at BASE + 0xAA. -/
def execCycCfiEntry (s : State) : Result :=
  emitCycle .cfiEntry (fun t => t.at Config.cfiEntryOffset) Config.cfiEntryValue s

/-- CYC_WORD_PGM (R240): 0xA0 at BASE + 0xAAA. -/
def execCycWordPgm (s : State) : Result :=
  emitCycle .wordPgm (fun t => t.at Config.cmdOffset) Config.wordPgmValue s

/-- CYC_ERASE_SETUP (R250): 0x80 at BASE + 0xAAA. -/
def execCycEraseSetup (s : State) : Result :=
  emitCycle .eraseSetup (fun t => t.at Config.cmdOffset) Config.eraseSetupValue s

/-- CYC_ERASE_CONFIRM (R250): 0x30 at BASE + block offset. -/
def execCycEraseConfirm (s : State) : Result :=
  emitCycle .eraseConfirm (fun t => t.at t.a0) Config.eraseConfirmValue s

/-- CYC_WB_LOAD (R260): 0x25 at the page address. -/
def execCycWbLoad (s : State) : Result :=
  emitCycle .wbLoad (fun t => t.paddr) Config.wbLoadValue s

/-- CYC_WB_COUNT (R260): `block_words - 1`, zero-extended, at the page address. -/
def execCycWbCount (n : BitVec 5) (s : State) : Result :=
  emitCycle .wbCount (fun t => t.paddr) (n.zeroExtend 16) s

/-- CYC_WB_CONFIRM (R260): 0x29 at the page address. -/
def execCycWbConfirm (s : State) : Result :=
  emitCycle .wbConfirm (fun t => t.paddr) Config.wbConfirmValue s

/-- CYC_DATA (R240, R260): the data word, held in WDATA, at its target. -/
def execCycData (v : Cell) (s : State) : Result :=
  emitCycle .data (fun t => t.dataAddr) v { s with wdata := v }

end Sys2Proof.Machine
end

