-- ==== Sys2Proof/Machine/Identify.lean ====
section
/-! DEFINITION. The Identification & Query Engine: GET_MANUFACTURER_ID, GET_DEVICE_ID, READ_QUERY_FIELD,
GET_BLOCK_SIZE, QUERY (43_ident_query.md). -/

namespace Sys2Proof.Machine

/-- GET_MANUFACTURER_ID (R200). -/
def execGetManufacturerId (f : Fields) (s : State) : Result :=
  request Opcode.getManufacturerId f admitsBase (State.goTo .midU1) s

/-- GET_DEVICE_ID (R203). -/
def execGetDeviceId (f : Fields) (s : State) : Result :=
  request Opcode.getDeviceId f admitsBase (State.goTo .didU1) s

/-- READ_QUERY_FIELD (R207). -/
def execReadQueryField (f : Fields) (s : State) : Result :=
  request Opcode.readQueryField f admitsOffset (State.goTo (.rqf .u1)) s

/-- GET_BLOCK_SIZE (R210): the low field's sequence, then the high field's. -/
def execGetBlockSize (f : Fields) (s : State) : Result :=
  request Opcode.getBlockSize f admitsOffsets (State.goTo (.gbsLow .u1)) s

/-- The key decode of QUERY (R215, R105): FlashBase answers at once; the other four keys run the operation they select,
"none of its own" (R30); every other key is `UNSUPPORTED_QUERY`, before any bus cycle (60_exceptions.md R362). -/
def queryKey (s : State) : State :=
  match s.a0 with
  | 0 => s.reply .success (resultOfBase s.base)
  | 1 => s.goTo .midU1
  | 2 => s.goTo .didU1
  | 3 => s.goTo (.rqf .u1)
  | 4 => s.goTo (.gbsLow .u1)
  | _ => s.reply .unsupportedQuery 0

/-- QUERY (R215). -/
def execQuery (f : Fields) (s : State) : Result :=
  request Opcode.query f admitsBase queryKey s

end Sys2Proof.Machine
end

