-- ==== Sys2Proof/Machine/Poller.lean ====
section
/-! DEFINITION. The Status Poller: POLL (42_poll.md). -/

namespace Sys2Proof.Machine

/-- POLL (R183): the poll loop alone at A0 for D; with `POLL_CEILING = 0` it times out at once, without a read (R181). -/
def execPoll (f : Fields) (s : State) : Result :=
  request Opcode.poll f admitsAddress (fun t => pollStart .pollRd t.a0 t.d t) s

end Sys2Proof.Machine
end

