-- ==== Sys2Proof/Machine/Program.lean ====
section
/-! DEFINITION. The Program/Erase Engine: WORD_PROGRAM, ERASE_BLOCK, WRITE_BUFFER (44_program_erase.md). -/

namespace Sys2Proof.Machine

/-- WORD_PROGRAM (R240). -/
def execWordProgram (f : Fields) (s : State) : Result :=
  request Opcode.wordProgram f admitsOffset (State.goTo .wpU1) s

/-- ERASE_BLOCK (R250): it begins with a reset sequence. -/
def execEraseBlock (f : Fields) (s : State) : Result :=
  request Opcode.eraseBlock f admitsOffset (State.goTo (.erRst0 .u1)) s

/-- The set-up of WRITE_BUFFER (R260, R262) and the first decision of its page loop. -/
def wbStart (s : State) : State :=
  wbNextPage { s with rem := wordCount s.a1, paddr := s.at s.a0, sidx := 0 }

/-- WRITE_BUFFER (R260). -/
def execWriteBuffer (f : Fields) (s : State) : Result :=
  request Opcode.writeBuffer f admitsOffset wbStart s

end Sys2Proof.Machine
end

