-- ==== Sys2Proof/Machine/ReadPath.lean ====
section
/-! DEFINITION. The Read Path: READ_BUFFER (45_read_path.md). -/

namespace Sys2Proof.Machine

/-- READ_BUFFER (R300): any offset, any length. -/
def execReadBuffer (f : Fields) (s : State) : Result :=
  request Opcode.readBuffer f admitsBase (fun t => rbNext { t with ridx := 0 }) s

end Sys2Proof.Machine
end

