-- ==== Sys2Proof/Machine/UnlockReset.lean ====
section
/-! DEFINITION. The Unlock/Command Sequencer: UNLOCK, RESET (41_unlock_reset.md). -/

namespace Sys2Proof.Machine

/-- UNLOCK (R161): `Unlock(BASE)` alone. -/
def execUnlock (f : Fields) (s : State) : Result :=
  request Opcode.unlock f admitsBase (State.goTo .unlU1) s

/-- RESET (R164): `ResetSeq()` alone. -/
def execReset (f : Fields) (s : State) : Result :=
  request Opcode.reset f admitsBase (State.goTo (.rst .u1)) s

end Sys2Proof.Machine
end

