-- ==== Sys2Proof/Machine/Dispatch.lean ====
section
/-! DEFINITION. One arm per constructor of Instr. -/

namespace Sys2Proof.Machine

def exec (i : Instr) (s : State) : Host.Outcome State Fault Refusal :=
  match i with
  | .init f => Sys2Proof.Machine.execInit f s
  | .write16 f => Sys2Proof.Machine.execWrite16 f s
  | .read16 f => Sys2Proof.Machine.execRead16 f s
  | .unlock f => Sys2Proof.Machine.execUnlock f s
  | .reset f => Sys2Proof.Machine.execReset f s
  | .poll f => Sys2Proof.Machine.execPoll f s
  | .getManufacturerId f => Sys2Proof.Machine.execGetManufacturerId f s
  | .getDeviceId f => Sys2Proof.Machine.execGetDeviceId f s
  | .readQueryField f => Sys2Proof.Machine.execReadQueryField f s
  | .getBlockSize f => Sys2Proof.Machine.execGetBlockSize f s
  | .query f => Sys2Proof.Machine.execQuery f s
  | .wordProgram f => Sys2Proof.Machine.execWordProgram f s
  | .eraseBlock f => Sys2Proof.Machine.execEraseBlock f s
  | .writeBuffer f => Sys2Proof.Machine.execWriteBuffer f s
  | .readBuffer f => Sys2Proof.Machine.execReadBuffer f s
  | .cycUnlock1 => Sys2Proof.Machine.execCycUnlock1 s
  | .cycUnlock2 => Sys2Proof.Machine.execCycUnlock2 s
  | .cycReset => Sys2Proof.Machine.execCycReset s
  | .cycIdEntry => Sys2Proof.Machine.execCycIdEntry s
  | .cycCfiEntry => Sys2Proof.Machine.execCycCfiEntry s
  | .cycWordPgm => Sys2Proof.Machine.execCycWordPgm s
  | .cycEraseSetup => Sys2Proof.Machine.execCycEraseSetup s
  | .cycEraseConfirm => Sys2Proof.Machine.execCycEraseConfirm s
  | .cycWbLoad => Sys2Proof.Machine.execCycWbLoad s
  | .cycWbCount n => Sys2Proof.Machine.execCycWbCount n s
  | .cycWbConfirm => Sys2Proof.Machine.execCycWbConfirm s
  | .cycData v => Sys2Proof.Machine.execCycData v s

end Sys2Proof.Machine
end

