-- ==== Sys2Proof/Machine/Fetch.lean ====
section
/-! DEFINITION. Where step finds its next instruction: the oldest request offered when the block is idle (30_encoding.md
R107), the command cycle SEQ names otherwise; the hardware-reset line; and the placing of a table word there. -/

namespace Sys2Proof.Machine

/-- Hardware reset is asserted for this step (70_reset_and_hazards.md R401; log 8). -/
def State.resetAsserted (s : State) : Bool := s.resetPort.headD false

/-- The reset line's indication for this step is used up. -/
def State.popReset (s : State) : State := { s with resetPort := s.resetPort.tail }

/-- The oldest request leaves the requester with its source bytes (R107, R75); the block reads it next. -/
def State.takeRequest (r : Request) (rest : List Request) (s : State) : State :=
  { s with requests := rest, srcBuf := r.src }

/-- SEQ at a position that emits the cycle, with the registers that hold its operand (log 12). The positions are those
of the operation that emits it; for the unlock and reset cycles those of UNLOCK and RESET. -/
def State.placeCycle (i : Instr) (s : State) : State :=
  match i with
  | .cycUnlock1 => { s with seq := .unlU1 }
  | .cycUnlock2 => { s with seq := .unlU2 }
  | .cycReset => { s with seq := .rst .f0 }
  | .cycIdEntry => { s with seq := .midEnter }
  | .cycCfiEntry => { s with seq := .rqf .cfi }
  | .cycWordPgm => { s with seq := .wpCmd }
  | .cycEraseSetup => { s with seq := .erSetup }
  | .cycEraseConfirm => { s with seq := .erConfirm }
  | .cycWbLoad => { s with seq := .wbLoad }
  | .cycWbCount n => { s with seq := .wbCount, bw := n.zeroExtend 6 + 1 }
  | .cycWbConfirm => { s with seq := .wbConfirm }
  | .cycData v => { s with seq := .wpData, d := v }
  | .init _ => s
  | .write16 _ => s
  | .read16 _ => s
  | .unlock _ => s
  | .reset _ => s
  | .poll _ => s
  | .getManufacturerId _ => s
  | .getDeviceId _ => s
  | .readQueryField _ => s
  | .getBlockSize _ => s
  | .query _ => s
  | .wordProgram _ => s
  | .eraseBlock _ => s
  | .writeBuffer _ => s
  | .readBuffer _ => s

/-- A request word offered to an idle block before every other, without source bytes. -/
def State.placeRequest (w : Nat) (s : State) : State :=
  { s with seq := .idle, requests := { word := w, src := [] } :: s.requests }

/-- Nothing keeps the very next step from happening: no bus fault is held, no hardware reset is asserted. -/
def State.released (s : State) : State := { s with faulted := false, resetPort := [] }

/-- A table word where step fetches its next instruction: a 16-bit word (or the row without fixed bits) is a command
cycle, any other a request (log 11, log 12). -/
def placeTableWord (s : State) (nbits w : Nat) : State :=
  if nbits = 16 then s.released.placeCycle (decodeCycleWord (BitVec.ofNat 16 w))
  else if nbits = 0 then s.released.placeCycle (.cycData (BitVec.ofNat 16 w))
  else s.released.placeRequest w

end Sys2Proof.Machine
end

