-- ==== Sys2Proof/Machine/Step.lean ====
section
/-! DEFINITION. One step (00_scope.md R13): a hardware reset, or the next event: the acceptance of a request, a command
cycle, another bus cycle, a source fetch, a delivery, a response. -/

namespace Sys2Proof.Machine

/-- The step of an idle block: the oldest request offered is decoded and executed; with none offered it waits
(70_reset_and_hazards.md R400, 60_exceptions.md R384; log 9). -/
def stepIdle (s : State) : Host.Outcome State Fault Refusal :=
  match s.requests with
  | [] => .next s
  | r :: rest =>
    match decode s.params.aw r.word with
    | .ok i => exec i (s.takeRequest r rest)
    | .reject _ => illegalRequest (opOf r.word) (fieldsOf s.params.aw r.word) (s.takeRequest r rest)

/-- The next event of the block. -/
def stepEvent (s : State) : Host.Outcome State Fault Refusal :=
  if s.stopped then .fault .busFault
  else if s.seq = .idle then stepIdle s
  else
    match s.cycleInstr with
    | some i => exec i s
    | none => stepOther s

/-- One step of the machine. -/
def step (s : State) : Host.Outcome State Fault Refusal :=
  if s.resetAsserted then .next s.popReset.hardwareReset
  else stepEvent s.popReset

/-- The state with the table's word placed where `step` fetches its next instruction (log 12). -/
def State.withFetchWord (s : State) (nbits w : Nat) : State := placeTableWord s nbits w

end Sys2Proof.Machine
end

