-- ==== Sys2Proof/Safety.lean ====
section
/-! DEFINITION. The terms claims use: runs, what lies outside the block staying quiet, the poll's outcome, and the
invariants of the machine. -/

namespace Sys2Proof.Machine

/-- `n` steps, stopping at the first fault or refusal. -/
def run : Nat → State → Result
  | 0, s => .next s
  | n + 1, s =>
    match step s with
    | .next t => run n t
    | .fault e => .fault e
    | .refused e => .refused e

/-- The block is idle and not faulted: it accepts a request (30_encoding.md R107). -/
abbrev State.Ready (s : State) : Prop := s.seq = .idle ∧ s.faulted = false

/-- The platform signals nothing in the coming run: no bus fault (60_exceptions.md R364), no hardware reset
(70_reset_and_hazards.md R401). -/
abbrev State.Quiet (s : State) : Prop := s.faultPort = [] ∧ s.resetPort = []

/-- The five fields latched by acceptance (10_state.md R26). -/
def State.latched (op : BitVec 8) (f : Fields) (s : State) : State :=
  { s with op := op, kind := f.kind, a0 := f.a0, a1 := f.a1, d := f.d }

/-- The `Req` event of a request (30_encoding.md R107). -/
def reqEvent (op : BitVec 8) (f : Fields) : Event := .host (.req op f.kind f.a0 f.a1 f.d)

/-- The `Resp` event of a response (30_encoding.md R104). -/
def respEvent (st : Status) (res : BitVec 64) : Event := .host (.resp st res)

/-- `W(a, v)`. -/
def wr (a : Nat) (v : Cell) : Event := .bus (.w a v)

/-- `R(a, v)`. -/
def rd (a : Nat) (v : Cell) : Event := .bus (.r a v)

/-- The bus events of `Unlock(origin)`, in the numbers of 41_unlock_reset.md R160. -/
def unlockEvents (aw : Nat) (origin : Nat) : List Event :=
  [wr (addAW aw origin 0xAAA) 0x00AA, wr (addAW aw origin 0x554) 0x0055]

/-- The bus events of `ResetSeq()` (41_unlock_reset.md R163). -/
def resetEvents (aw : Nat) (base : Nat) : List Event := unlockEvents aw base ++ [wr base 0x00F0]

/-- The trailing reset where the step list shows none (43_ident_query.md R208, 44_program_erase.md R264). -/
def trailingEvents (s : State) : List Event :=
  if s.params.trailingResetUnlisted then resetEvents s.params.aw s.base else []

/-- What the device has become after the bus events of a list (20_memory.md R70: "the device observes exactly the bus
trace"). -/
def Device.seen (aw : Nat) : List Event → Device → Device
  | [], dv => dv
  | .bus (.w a v) :: es, dv => Device.seen aw es (dv.write aw a v)
  | .bus (.r _ _) :: es, dv => Device.seen aw es dv.afterRead
  | .host _ :: es, dv => Device.seen aw es dv

/-- The state after an operation whose events between `Req` and `Resp` were `es`: the request latched, STATUS and RESULT
written, the device changed by the bus events, everything else as before. An operation that writes a working register
names it beside. -/
def State.finished (op : BitVec 8) (f : Fields) (es : List Event) (st : Status) (res : BitVec 64) (s : State) : State :=
  { s.latched op f with
    status := st
    result := res
    device := s.device.seen s.params.aw es
    trace := s.trace ++ reqEvent op f :: (es ++ [respEvent st res]) }

/-- The operation code needs `BASE_VALID = 1`: "any code other than INIT, WRITE16, READ16, POLL" (30_encoding.md R108
(3)). -/
def Instr.needsBase : Instr → Bool
  | .init _ => false
  | .write16 _ => false
  | .read16 _ => false
  | .poll _ => false
  | _ => true

/-- A request that is turned away (60_exceptions.md R363): it is accepted and answered `ILLEGAL_REQUEST` with 0, "raised
before any bus cycle"; but for the operand fields, of which this says nothing (log 13), "no state changes except STATUS
and RESULT". -/
def TurnedAway (i : Instr) (s : State) : Prop :=
  ∃ t u q, exec i s = .next t ∧ step t = .next u ∧
    u = { s with
      op := u.op
      kind := u.kind
      a0 := u.a0
      a1 := u.a1
      d := u.d
      status := .illegalRequest
      result := 0
      trace := s.trace ++ [.host q, respEvent .illegalRequest 0] }

/-- The admission checks of R108 on a request word: (1) a code of the table, (2) INIT only once, (3) BASE when needed,
(2), (4) the alignment that makes the request well formed. -/
def Admissible (w : Nat) (s : State) : Prop :=
  ∃ i, decode s.params.aw w = .ok i ∧ i.wellFormed s.params.aw = true ∧
    (Instr.needsBase i = true → s.baseValid = true) ∧
    (opOf w = 0x01 → s.baseValid = false)

/-- The events of GET_BLOCK_SIZE for two field offsets and two answers (R210). -/
def blockSizeEvents (s : State) (lowOff highOff : Nat) (low high : Cell) : List Event :=
  unlockEvents s.params.aw s.base ++
    [wr (s.at 0xAAA) 0x0090, wr (s.at 0xAA) 0x0098, rd (s.at lowOff) low] ++ trailingEvents s ++
  unlockEvents s.params.aw s.base ++
    [wr (s.at 0xAAA) 0x0090, wr (s.at 0xAA) 0x0098, rd (s.at highOff) high] ++ trailingEvents s

/-- The state after one command cycle without a bus fault: the write is in the trace and at the device, its fault
indication is used up, and SEQ has gone to `q`. -/
def State.cycled (a : Nat) (v : Cell) (q : Seq) (s : State) : State :=
  { s with
    seq := q
    trace := s.trace ++ [wr a v]
    device := s.device.write s.params.aw a v
    faultPort := s.faultPort.tail }

/-- How a poll for `e` under a ceiling ends (42_poll.md R181 (a), (b), (c)): success at the n-th read, "the first n-1
unequal to `expected` and the n-th equal"; or timeout, "exactly `POLL_CEILING` reads, none equal".
`vs` are the values read. -/
inductive PollEnds (ceiling : Nat) (e : Cell) : List Cell → Bool → Prop where
  | success (bad : List Cell) : (∀ v ∈ bad, v ≠ e) → bad.length < ceiling → PollEnds ceiling e (bad ++ [e]) true
  | timeout (bad : List Cell) : (∀ v ∈ bad, v ≠ e) → bad.length = ceiling → PollEnds ceiling e bad false

/-- One word's events of a WRITE_BUFFER page: two fetches, one write (44_program_erase.md R260, R267 (c)); the lower
index is the low byte (20_memory.md R64). The first word is at `a`, its first byte at index `i`. -/
def wordEvents (aw : Nat) : Nat → Nat → List Byte → List Event
  | a, i, lo :: hi :: bs =>
    .host (.src i lo) :: .host (.src (addAW (aw + 1) i 1) hi) :: wr a (hi ++ lo) ::
      wordEvents aw (addAW aw a 2) (addAW (aw + 1) i 2) bs
  | _, _, [_] => []
  | _, _, [] => []

/-- The last word of a page's bytes. -/
def lastWord : List Byte → Cell
  | [lo, hi] => hi ++ lo
  | _ :: _ :: bs => lastWord bs
  | [_] => 0
  | [] => 0

/-- The origin of the unlock of the page at `page` (R261). -/
def State.pageOrigin (s : State) (page : Nat) : Nat :=
  match s.params.wbUnlockOrigin with
  | .base => s.base
  | .page => page

/-- The events of one page up to its confirm cycle (R260), its source bytes `bs` fetched from index `i` on. -/
def pageEvents (s : State) (page : Nat) (i : Nat) (bs : List Byte) : List Event :=
  unlockEvents s.params.aw (s.pageOrigin page) ++ [wr page 0x0025, wr page (BitVec.ofNat 16 (bs.length / 2 - 1))] ++
    wordEvents s.params.aw page i bs ++ [wr page 0x0029]

/-- The bytes fetched from index `i` on are the requester's wherever its buffer is known (R262). -/
def SourceBytes (s : State) (i : Nat) (bs : List Byte) : Prop :=
  ∀ (k : Nat) (b c : Byte), bs[k]? = some b → s.srcBuf[s.srcIndex i k]? = some c → b = c

/-- The events of WRITE_BUFFER between `Req` and `Resp`, and its status (R260 to R265): `rem` words are left, the next
page starts at `page`, the next source byte is `i`. -/
inductive BufferRun (s : State) : (page : Nat) → (rem : Nat) → (i : Nat) → List Event → Status → Prop where
  /-- No word is left: the trailing reset of R264. -/
  | done (page : Nat) (i : Nat) : BufferRun s page 0 i (trailingEvents s) .success
  /-- A page whose poll succeeds, then the rest. -/
  | page (page : Nat) (rem : Nat) (i : Nat) (bs : List Byte) (vs : List Cell) (es : List Event) (st : Status) :
      0 < rem → bs.length = 2 * min rem 32 → SourceBytes s i bs →
      PollEnds s.params.pollCeiling.toNat (lastWord bs) vs true →
      BufferRun s (s.plus page bs.length) (rem - min rem 32) (s.srcIndex i bs.length) es st →
      BufferRun s page rem i
        (pageEvents s page i bs ++ vs.map (rd (s.plus page (bs.length - 2))) ++ es) st
  /-- A page whose poll times out: the abort reset of R263, no further page. -/
  | abort (page : Nat) (rem : Nat) (i : Nat) (bs : List Byte) (vs : List Cell) :
      0 < rem → bs.length = 2 * min rem 32 → SourceBytes s i bs →
      PollEnds s.params.pollCeiling.toNat (lastWord bs) vs false →
      BufferRun s page rem i
        (pageEvents s page i bs ++ vs.map (rd (s.plus page (bs.length - 2))) ++
          resetEvents s.params.aw s.base)
        .timeout

/-- The events of READ_BUFFER between `Req` and `Resp` (45_read_path.md R300): `n` bytes from byte address `a` on, the
next one is byte `i`; `c` is the cell held and `v` its value. -/
inductive CopyRun (aw : Nat) (a : Nat) (n : Nat) : (i : Nat) → (c : Nat) → (v : Cell) → List Event → Prop where
  | done (c : Nat) (v : Cell) : CopyRun aw a n n c v []
  /-- The byte's cell is read, then the byte delivered. -/
  | read (i : Nat) (c : Nat) (v v' : Cell) (es : List Event) :
      i < n → (i = 0 ∨ cellOf (addAW aw a i) ≠ c) →
      CopyRun aw a n (i + 1) (cellOf (addAW aw a i)) v' es →
      CopyRun aw a n i c v (rd (cellOf (addAW aw a i)) v' :: .host (.dst i (byteAt (addAW aw a i) v')) :: es)
  /-- The byte lies in the cell held. -/
  | held (i : Nat) (c : Nat) (v : Cell) (es : List Event) :
      i < n → i ≠ 0 → cellOf (addAW aw a i) = c →
      CopyRun aw a n (i + 1) c v es →
      CopyRun aw a n i c v (.host (.dst i (byteAt (addAW aw a i) v)) :: es)

/-- The bus write the position makes next, if it makes one: its address and value, in the numbers of 30_encoding.md R111,
and the write of WRITE16 (40_access_init.md R143). -/
def State.comingWrite (s : State) : Option (Nat × Cell) :=
  match s.seq.cycle with
  | some .unlock1 => some (s.plus s.unlockOrigin 0xAAA, 0x00AA)
  | some .unlock2 => some (s.plus s.unlockOrigin 0x554, 0x0055)
  | some .reset => some (s.base, 0x00F0)
  | some .idEntry => some (s.at 0xAAA, 0x0090)
  | some .cfiEntry => some (s.at 0xAA, 0x0098)
  | some .wordPgm => some (s.at 0xAAA, 0x00A0)
  | some .eraseSetup => some (s.at 0xAAA, 0x0080)
  | some .eraseConfirm => some (s.at s.a0, 0x0030)
  | some .wbLoad => some (s.paddr, 0x0025)
  | some .wbCount => some (s.paddr, (countField s.bw).zeroExtend 16)
  | some .wbConfirm => some (s.paddr, 0x0029)
  | some .data => some (s.dataAddr, s.dataWord)
  | none => if s.seq = .wrCyc then some (s.a0, s.d) else none

/-- The address of the bus read the position makes next, if it makes one (10_state.md R30). -/
def State.comingRead (s : State) : Option Nat :=
  match s.seq with
  | .rdCyc => some s.a0
  | .pollRd => some s.ptgt
  | .midRead => some (s.at s.params.mfrCellOffset)
  | .didRead => some (s.at s.params.devCellOffset)
  | .didExt1 => some (s.at 0x1C)
  | .didExt2 => some (s.at 0x1E)
  | .rqf .read => some (s.at s.fieldOffset)
  | .gbsLow .read => some (s.at s.lowOffset)
  | .gbsHigh .read => some (s.at s.highOffset)
  | .wpPoll => some s.ptgt
  | .erPoll => some s.ptgt
  | .wbPoll => some s.ptgt
  | .rbCell => some (cellOf s.readByteAddr)
  | _ => none

/-- The block stopped by a bus fault on the cycle whose event is `e` (60_exceptions.md R364): the event is appended,
FAULTED is 1, SEQ is FAULTED, and the next step is the fault. -/
def State.StoppedBy (s : State) (e : Event) (t : State) : Prop :=
  t.trace = s.trace ++ [e] ∧ t.faulted = true ∧ t.seq = .faulted ∧ step t = .fault .busFault

/-! Invariants. -/

/-- FAULTED and SEQ agree (10_state.md R34): "Once set, SEQ is `FAULTED`". -/
abbrev FaultAgrees (s : State) : Prop := s.faulted = true ↔ s.seq = .faulted

/-- The device's array keeps its canonical form. -/
abbrev ArrayCanonical (s : State) : Prop := Memory.wf s.device.arr

/-- SEQ stands in a poll loop. -/
def Seq.isPoll : Seq → Bool
  | .pollRd => true
  | .wpPoll => true
  | .erPoll => true
  | .wbPoll => true
  | _ => false

/-- POLLCNT counts reads done, 0 to `POLL_CEILING`, and "it never overflows" (10_state.md R28). -/
abbrev PollBounded (s : State) : Prop :=
  s.pollCnt.toNat ≤ s.params.pollCeiling.toNat ∧
    (s.seq.isPoll = true → s.pollCnt.toNat < s.params.pollCeiling.toNat)

/-- SEQ stands inside a page of WRITE_BUFFER. -/
def Seq.inPage : Seq → Bool
  | .wbU1 => true
  | .wbU2 => true
  | .wbLoad => true
  | .wbCount => true
  | .wbSrc0 => true
  | .wbSrc1 => true
  | .wbData => true
  | .wbConfirm => true
  | .wbPoll => true
  | _ => false

/-- SEQ stands in the word loop of a page. -/
def Seq.inWord : Seq → Bool
  | .wbSrc0 => true
  | .wbSrc1 => true
  | .wbData => true
  | _ => false

/-- The page registers (10_state.md R27, 44_program_erase.md R260): inside a page BW is 1 to 32 and at most REM; in the
word loop WI is below BW. -/
abbrev PageBounded (s : State) : Prop :=
  (s.seq.inPage = true → 1 ≤ s.bw.toNat ∧ s.bw.toNat ≤ 32 ∧ s.bw.toNat ≤ s.rem) ∧
    (s.seq.inWord = true → s.wi.toNat < s.bw.toNat)

/-- A response that is coming or was given carries 0 unless it is a success (30_encoding.md R104). -/
def ErrorsCarryZero (s : State) : Prop :=
  (s.status ≠ .success → s.result = 0) ∧
    (∀ st res, s.seq = .respond st res → st ≠ .success → res = 0)

/-- The address of a bus event. -/
def busAddr : BusEvent → Nat
  | .w a _ => a
  | .r a _ => a

/-- What the alignment of the coming bus cycles rests on, position by position (20_memory.md R68; 30_encoding.md
R108). -/
def SeqAligned (s : State) : Prop :=
  match s.seq with
  | .idle => True
  | .faulted => True
  | .respond _ _ => True
  | .wrCyc => isEven s.a0 = true
  | .rdCyc => isEven s.a0 = true
  | .pollRd => isEven s.ptgt = true
  | .rqf _ => s.baseValid = true ∧ isEven s.fieldOffset = true
  | .gbsLow _ => s.baseValid = true ∧ isEven s.lowOffset = true ∧ isEven s.highOffset = true
  | .gbsHigh _ => s.baseValid = true ∧ isEven s.lowOffset = true ∧ isEven s.highOffset = true
  | .wpU1 => s.baseValid = true ∧ isEven s.a0 = true
  | .wpU2 => s.baseValid = true ∧ isEven s.a0 = true
  | .wpCmd => s.baseValid = true ∧ isEven s.a0 = true
  | .wpData => s.baseValid = true ∧ isEven s.a0 = true
  | .wpPoll => s.baseValid = true ∧ isEven s.ptgt = true
  | .erRst0 _ => s.baseValid = true ∧ isEven s.a0 = true
  | .erU1A => s.baseValid = true ∧ isEven s.a0 = true
  | .erU2A => s.baseValid = true ∧ isEven s.a0 = true
  | .erSetup => s.baseValid = true ∧ isEven s.a0 = true
  | .erU1B => s.baseValid = true ∧ isEven s.a0 = true
  | .erU2B => s.baseValid = true ∧ isEven s.a0 = true
  | .erConfirm => s.baseValid = true ∧ isEven s.a0 = true
  | .erPoll => s.baseValid = true ∧ isEven s.ptgt = true
  | .wbU1 => s.baseValid = true ∧ isEven s.paddr = true
  | .wbU2 => s.baseValid = true ∧ isEven s.paddr = true
  | .wbLoad => s.baseValid = true ∧ isEven s.paddr = true
  | .wbCount => s.baseValid = true ∧ isEven s.paddr = true
  | .wbSrc0 => s.baseValid = true ∧ isEven s.paddr = true
  | .wbSrc1 => s.baseValid = true ∧ isEven s.paddr = true
  | .wbData => s.baseValid = true ∧ isEven s.paddr = true
  | .wbConfirm => s.baseValid = true ∧ isEven s.paddr = true
  | .wbPoll => s.baseValid = true ∧ isEven s.paddr = true ∧ isEven s.ptgt = true
  | .unlU1 => s.baseValid = true
  | .unlU2 => s.baseValid = true
  | .rst _ => s.baseValid = true
  | .midU1 => s.baseValid = true
  | .midU2 => s.baseValid = true
  | .midEnter => s.baseValid = true
  | .midRead => s.baseValid = true
  | .midRst _ => s.baseValid = true
  | .didU1 => s.baseValid = true
  | .didU2 => s.baseValid = true
  | .didEnter => s.baseValid = true
  | .didRead => s.baseValid = true
  | .didExt1 => s.baseValid = true
  | .didExt2 => s.baseValid = true
  | .didRst _ => s.baseValid = true
  | .wpRst _ => s.baseValid = true
  | .erRst _ => s.baseValid = true
  | .wbAbort _ => s.baseValid = true
  | .wbRst _ => s.baseValid = true
  | .rbCell => s.baseValid = true
  | .rbOut => s.baseValid = true

/-- Every register that holds an address, an offset or a length holds AW bits, SIDX one bit more (10_state.md R22, R26,
R27), and every bus access is to an address of AW bits (R36). -/
def InRange (s : State) : Prop :=
  s.base < 2 ^ s.params.aw ∧ s.a0 < 2 ^ s.params.aw ∧ s.a1 < 2 ^ s.params.aw ∧ s.ptgt < 2 ^ s.params.aw ∧
    s.paddr < 2 ^ s.params.aw ∧ s.rem < 2 ^ s.params.aw ∧ s.ridx < 2 ^ s.params.aw ∧ s.rcell < 2 ^ s.params.aw ∧
    s.sidx < 2 ^ (s.params.aw + 1) ∧ ∀ e ∈ s.busTrace, busAddr e < 2 ^ s.params.aw

/-- Every bus access is to an even address (20_memory.md R68), with what keeps it so. -/
def Aligned (s : State) : Prop :=
  s.params.even = true ∧ (s.baseValid = true → isEven s.base = true) ∧ SeqAligned s ∧
    ∀ e ∈ s.busTrace, isEven (busAddr e) = true

/-- The cycle a position is about to emit is the second of an unlock. -/
def Seq.isUnlock2 (q : Seq) : Bool := decide (q.cycle = some .unlock2)

/-- The cycle a position is about to emit is a privileged command that directly follows its unlock: reset, ID-read entry,
word write, erase setup, erase confirm, write-buffer load (41_unlock_reset.md R162). -/
def Seq.isPrivileged (q : Seq) : Bool :=
  decide (q.cycle = some .reset ∨ q.cycle = some .idEntry ∨ q.cycle = some .wordPgm ∨
    q.cycle = some .eraseSetup ∨ q.cycle = some .eraseConfirm ∨ q.cycle = some .wbLoad)

/-- The origin of the unlock before the position: BASE, in a page of WRITE_BUFFER by `WB_UNLOCK_ORIGIN` (R261). -/
def State.freshOrigin (s : State) : Nat := if s.seq.inPage then s.wbOrigin else s.base

/-- "every privileged operation begins with a fresh two-cycle unlock" (41_unlock_reset.md R162): when a privileged
command is the next event, the last two bus events are an unlock's; when the query mode entry is the next event, the last
three are an unlock's and the ID-read entry (43_ident_query.md R207). -/
def FreshlyUnlocked (s : State) : Prop :=
  (s.seq.isUnlock2 = true → ∃ bt, s.busTrace = bt ++ [.w (s.plus s.freshOrigin 0xAAA) 0x00AA]) ∧
    (s.seq.isPrivileged = true →
      ∃ bt, s.busTrace =
        bt ++ [.w (s.plus s.freshOrigin 0xAAA) 0x00AA, .w (s.plus s.freshOrigin 0x554) 0x0055]) ∧
    (s.seq.cycle = some .cfiEntry →
      ∃ bt, s.busTrace = bt ++ [.w (s.at 0xAAA) 0x00AA, .w (s.at 0x554) 0x0055, .w (s.at 0xAAA) 0x0090])

end Sys2Proof.Machine
end

