-- ==== Sys2Proof/Certificates/Slice0/Obligations.lean ====
section
/-! DEFINITION. The statements for the provers. A docstring says which rule of spec/ a statement formalises. -/

open Sys2Proof Sys2Proof.Machine

/-! ## Encoding -/

/-- Decode of encode is the identity, at every address width and for every instruction whose operands have that width
(30_encoding.md R100, R102, R111). The place of KIND is the model's reading (log 10). -/
def Obligations.DecodeInvertsEncode : Prop :=
  ∀ (aw : Nat) (i : Instr), i.fits aw = true → decodeEncoded aw (encode aw i) = .ok i

/-- Encode of decode gives a request word of 16+2*AW+16 bits back, less the ignored bits 15:10 (R100, R109), and the
operands decoded have the width of their fields. The place of KIND: log 10. -/
def Obligations.EncodeInvertsDecode : Prop :=
  ∀ (aw w : Nat) (i : Instr), decode aw w = .ok i →
    i.fits aw = true ∧ (w < 2 ^ (32 + 2 * aw) → encode aw i = .request (w % 2 ^ 10 + 2 ^ 16 * (w / 2 ^ 16)))

/-- The illegal operation codes are those R109 lists, and bits 15:10 are ignored (the place of KIND: log 10). -/
def Obligations.IllegalCodesAndIgnoredBits : Prop :=
  (∀ aw w : Nat, (∃ e, decode aw w = .reject e) ↔
    (opOf w).toNat = 0x00 ∨ (0x07 ≤ (opOf w).toNat ∧ (opOf w).toNat ≤ 0x0F) ∨
      (0x15 ≤ (opOf w).toNat ∧ (opOf w).toNat ≤ 0x1F) ∨ 0x24 ≤ (opOf w).toNat) ∧
  ∀ aw w w' : Nat, w % 2 ^ 10 = w' % 2 ^ 10 → w / 2 ^ 16 = w' / 2 ^ 16 → decode aw w = decode aw w'

/-- The request words of vectors V30-1 to V30-6 (95_test_vectors.md, AW = 32) decode to their requests, and one word of
another width (the place of KIND: log 10). -/
def Obligations.WrittenWordsDecode : Prop :=
  decode 32 0x000000000000100000000001 = .ok (.init ⟨0, 0x10000000, 0, 0⟩) ∧
  decode 32 0x123400000000000100000020 = .ok (.wordProgram ⟨0, 0x10000, 0, 0x1234⟩) ∧
  decode 32 0xFFFF00000000100100000206 = .ok (.poll ⟨2, 0x10010000, 0, 0xFFFF⟩) ∧
  decode 32 0x000000000008000100000022 = .ok (.writeBuffer ⟨0, 0x10000, 8, 0⟩) ∧
  decode 32 0x000000000000000000040014 = .ok (.query ⟨0, 4, 0, 0⟩) ∧
  decode 32 0x0000000000000000000000FF = .reject (.illegalOpcode 0xFF) ∧
  decode 24 0x12340000080100000222 = .ok (.writeBuffer ⟨2, 0x010000, 0x000008, 0x1234⟩)

/-! ## The step -/

/-- A step of a ready block runs the oldest request offered, decoded (30_encoding.md R107). That requests are offered
in a list, and the reset line is one, is the model's (logs 8, 9). -/
def Obligations.StepRunsOfferedRequest : Prop :=
  ∀ (s : State) (r : Request) (rest : List Request) (i : Instr),
    s.Ready → s.resetAsserted = false → s.requests = r :: rest → decode s.params.aw r.word = .ok i →
    step s = exec i { s with requests := rest, srcBuf := r.src, resetPort := s.resetPort.tail }

/-- A step at a position of a command cycle runs that cycle: SEQ "names the next event the block will perform"
(10_state.md R29; the reset line as a list: log 8). -/
def Obligations.StepRunsNamedCycle : Prop :=
  ∀ (s : State) (i : Instr),
    s.faulted = false → s.resetAsserted = false → s.cycleInstr = some i →
    step s = exec i { s with resetPort := s.resetPort.tail }

/-- The table's word, placed for the next step, is the instruction the next step runs. How the table numbers words and
what placing one takes are the model's (logs 11, 12). -/
def Obligations.StepRunsPlacedTableWord : Prop :=
  ∀ (s : State) (nbits w : Nat) (i : Instr), s.params.aw = Config.Params.default.aw →
    decodeTableWord nbits w = some i →
    step (s.withFetchWord nbits w) =
      exec i (if i.isRequest then { s with seq := .idle, faulted := false, resetPort := [], srcBuf := [] }
        else s.withFetchWord nbits w)

/-- An idle block with no request offered waits: nothing but the reset line's list changes (R400 "it then waits for a
request"; that waiting is a step is the model's, log 9). -/
def Obligations.IdleBlockWaits : Prop :=
  ∀ s : State, s.Ready → s.resetAsserted = false → s.requests = [] →
    step s = .next { s with resetPort := s.resetPort.tail }

/-- R107: while SEQ is not IDLE "a request is not accepted and is not stored"; "the requester keeps it". That a
request presented to a busy block answers the same state is the model's (log 14). -/
def Obligations.BusyBlockAcceptsNothing : Prop :=
  (∀ (s t : State), step s = .next t → s.seq ≠ .idle →
    t.requests = s.requests ∧
      (t.trace = s.trace ∨ ∃ e, t.trace = s.trace ++ [e] ∧ ∀ op k x y z, e ≠ .host (.req op k x y z))) ∧
  ∀ (i : Instr) (s : State), i.isRequest = true → s.faulted = false → s.seq ≠ .idle → s.seq ≠ .faulted →
    exec i s = .next s

/-- R13: a step is one event: it appends exactly one, but for a hardware reset and for waiting, which append none and
which the model counts as steps (logs 8, 9). -/
def Obligations.OneStepOneEvent : Prop :=
  ∀ (s t : State), step s = .next t →
    ((s.resetAsserted = true ∨ (s.seq = .idle ∧ s.requests = [])) ∧ t.trace = s.trace) ∨
      (¬(s.resetAsserted = true ∨ (s.seq = .idle ∧ s.requests = [])) ∧ ∃ e, t.trace = s.trace ++ [e])

/-- Whether the block has a step never depends on the device (47_flash_device_environment.md R320): a step is never
refused, and faults exactly in a faulted state without hardware reset (10_state.md R34, 60_exceptions.md R364; the
reset line: log 8). -/
def Obligations.StepStopsOnlyWhenFaulted : Prop :=
  (∀ (s : State) (e : Refusal), step s ≠ .refused e) ∧
  ∀ (s : State) (e : Fault), step s = .fault e ↔
    s.resetAsserted = false ∧ (s.faulted = true ∨ s.seq = .faulted)

/-! ## Reset -/

/-- R400 and R402: hardware reset in any state. That the requests offered and the parameters stay is the model's (logs
8, 22). -/
def Obligations.HardwareResetSetsRegisters : Prop :=
  ∀ s : State, s.resetAsserted = true → ∃ t, step s = .next t ∧
    t.seq = .idle ∧ t.baseValid = false ∧ t.faulted = false ∧ t.status = .success ∧ t.trace = s.trace ∧
    t.device = s.device ∧ t.requests = s.requests ∧ t.params = s.params

/-- R40: the values the spec gives for reset. The empty trace and the default parameters are the model's (logs 4, 19).
-/
def Obligations.ResetStateValues : Prop :=
  State.reset.seq = .idle ∧ State.reset.baseValid = false ∧ State.reset.faulted = false ∧
    State.reset.status.code = 0 ∧ State.reset.trace = [] ∧ State.reset.params = Config.Params.default

/-- The invariants hold at reset. Where R40 leaves a register unspecified this rests on its value 0, and for the array on
its form, which are the model's (logs 2, 20). -/
def Obligations.ResetStateMeetsInvariants : Prop :=
  FaultAgrees State.reset ∧ ArrayCanonical State.reset ∧ PollBounded State.reset ∧ PageBounded State.reset ∧
    ErrorsCarryZero State.reset ∧ InRange State.reset ∧ Aligned State.reset ∧ FreshlyUnlocked State.reset

/-! ## Admission -/

/-- R108: a request that fails an admission check is accepted and answered `ILLEGAL_REQUEST`, with no bus cycle and
nothing else changed but the latched fields; that they are latched is the model's reading of R26 against R363 (log
13). -/
def Obligations.InadmissibleRequestIsIllegal : Prop :=
  ∀ (s : State) (r : Request) (rest : List Request),
    s.Ready → s.resetPort = [] → s.requests = r :: rest → ¬Admissible r.word s →
    run 2 s = .next (State.finished (opOf r.word) (fieldsOf s.params.aw r.word) [] .illegalRequest 0
      { s with requests := rest, srcBuf := r.src })

/-! ## INIT and the register access layer -/

/-- R140: INIT sets the base once. -/
def Obligations.InitSetsBaseOnce : Prop :=
  ∀ (s : State) (f : Fields), s.Ready → s.resetPort = [] →
    (s.baseValid = false → isEven f.a0 = true → ∃ t, exec (.init f) s = .next t ∧
      step t = .next { s.finished 0x01 f [] .success 0 with base := f.a0, baseValid := true }) ∧
    (s.baseValid = true ∨ isEven f.a0 = false → TurnedAway (.init f) s)

/-- R143: WRITE16 makes exactly one write, of all 16 bits of D at A0, before or after INIT. -/
def Obligations.Write16MakesOneWrite : Prop :=
  ∀ (s : State) (f : Fields), s.Ready → s.Quiet →
    (isEven f.a0 = true → ∃ t, exec (.write16 f) s = .next t ∧
      run 2 t = .next (s.finished 0x02 f [wr f.a0 f.d] .success 0)) ∧
    (isEven f.a0 = false → TurnedAway (.write16 f) s)

/-- R145: READ16 makes exactly one read at A0 and answers the cell, before or after INIT. -/
def Obligations.Read16ReturnsTheCell : Prop :=
  ∀ (s : State) (f : Fields), s.Ready → s.Quiet →
    (isEven f.a0 = true → ∃ t v, exec (.read16 f) s = .next t ∧ v = s.device.answer s.params.aw s.busTrace f.a0 ∧
      run 2 t = .next { s.finished 0x03 f [rd f.a0 v] .success (v.zeroExtend 64) with rdata := v }) ∧
    (isEven f.a0 = false → TurnedAway (.read16 f) s)

/-! ## UNLOCK and RESET -/

/-- R161 with R160: UNLOCK is the two unlock writes and nothing else. -/
def Obligations.UnlockMakesTwoWrites : Prop :=
  ∀ (s : State) (f : Fields), s.Ready → s.Quiet →
    (s.baseValid = true → ∃ t, exec (.unlock f) s = .next t ∧
      run 3 t = .next (s.finished 0x04 f
        [wr (s.at 0xAAA) 0x00AA, wr (s.at 0x554) 0x0055] .success 0)) ∧
    (s.baseValid = false → TurnedAway (.unlock f) s)

/-- R164 with R163: RESET is the unlock and 0xF0 at the base. -/
def Obligations.ResetMakesThreeWrites : Prop :=
  ∀ (s : State) (f : Fields), s.Ready → s.Quiet →
    (s.baseValid = true → ∃ t, exec (.reset f) s = .next t ∧
      run 4 t = .next (s.finished 0x05 f
        [wr (s.at 0xAAA) 0x00AA, wr (s.at 0x554) 0x0055, wr s.base 0x00F0] .success 0)) ∧
    (s.baseValid = false → TurnedAway (.reset f) s)

/-! ## POLL -/

/-- R181 with R183: POLL reads until the first equal value or until exactly `POLL_CEILING` reads were unequal, writes
nothing to the bus, and issues no reset after a timeout. -/
def Obligations.PollReadsUntilEqualOrCeiling : Prop :=
  ∀ (s : State) (f : Fields), s.Ready → s.Quiet →
    (isEven f.a0 = true →
     ∃ t vs ok, exec (.poll f) s = .next t ∧ PollEnds s.params.pollCeiling.toNat f.d vs ok ∧
       run (vs.length + 1) t = .next
         { s.finished 0x06 f (vs.map (rd f.a0)) (if ok then .success else .timeout) 0 with
           ptgt := f.a0
           expect := f.d
           pollCnt := BitVec.ofNat 32 vs.length
           rdata := vs.getLastD s.rdata
           pres := ok }) ∧
    (isEven f.a0 = false → TurnedAway (.poll f) s)

/-- R182: the kind never changes what the block does after acceptance. -/
def Obligations.KindNeverMatters : Prop :=
  ∀ (s : State) (k : BitVec 2), s.seq ≠ .idle → s.resetAsserted = false →
    step { s with kind := k } =
      match step s with
      | .next t => .next { t with kind := k }
      | .fault e => .fault e
      | .refused e => .refused e

/-! ## Identification and query -/

/-- R200: GET_MANUFACTURER_ID answers the whole cell, in seven cycles. -/
def Obligations.ManufacturerIdIsTheCell : Prop :=
  ∀ (s : State) (f : Fields), s.Ready → s.Quiet →
    (s.baseValid = true →
     ∃ t v, exec (.getManufacturerId f) s = .next t ∧
       run 8 t = .next
         { s.finished 0x10 f
             (unlockEvents s.params.aw s.base ++ [wr (s.at 0xAAA) 0x0090, rd (s.at s.params.mfrCellOffset) v] ++
               resetEvents s.params.aw s.base) .success (v.zeroExtend 64) with
           rdata := v }) ∧
    (s.baseValid = false → TurnedAway (.getManufacturerId f) s)

/-- R203 with R205: GET_DEVICE_ID answers the low byte, or on the sentinel the three-byte composite. -/
def Obligations.DeviceIdIsOneOrThreeBytes : Prop :=
  ∀ (s : State) (f : Fields), s.Ready → s.Quiet →
    (s.baseValid = true →
     ∃ t, exec (.getDeviceId f) s = .next t ∧
       ((∃ v : Cell, v.extractLsb' 0 8 ≠ 0x7E#8 ∧
           run 8 t = .next
             { s.finished 0x11 f
                 (unlockEvents s.params.aw s.base ++ [wr (s.at 0xAAA) 0x0090, rd (s.at s.params.devCellOffset) v] ++
                   resetEvents s.params.aw s.base) .success ((v.extractLsb' 0 8).zeroExtend 64) with
               rdata := v
               idacc := (v.extractLsb' 0 8).zeroExtend 24 }) ∨
         (∃ v r1 r2 : Cell, v.extractLsb' 0 8 = 0x7E#8 ∧
           run 10 t = .next
             { s.finished 0x11 f
                 (unlockEvents s.params.aw s.base ++
                   [wr (s.at 0xAAA) 0x0090, rd (s.at s.params.devCellOffset) v,
                     rd (s.at 0x1C) r1, rd (s.at 0x1E) r2] ++
                   resetEvents s.params.aw s.base) .success
                 ((r2.extractLsb' 0 8 ++ r1.extractLsb' 0 8 ++ 0x7E#8).zeroExtend 64) with
               rdata := r2
               idacc := r2.extractLsb' 0 8 ++ r1.extractLsb' 0 8 ++ 0x7E#8 }))) ∧
    (s.baseValid = false → TurnedAway (.getDeviceId f) s)

/-- R207 with R208: READ_QUERY_FIELD answers the whole cell; the trailing reset follows the parameter. -/
def Obligations.QueryFieldIsTheCell : Prop :=
  ∀ (s : State) (f : Fields), s.Ready → s.Quiet →
    (s.baseValid = true → isEven f.a0 = true →
     ∃ t v, exec (.readQueryField f) s = .next t ∧
       run (if s.params.trailingResetUnlisted then 9 else 6) t = .next
         { s.finished 0x12 f
             (unlockEvents s.params.aw s.base ++
               [wr (s.at 0xAAA) 0x0090, wr (s.at 0xAA) 0x0098, rd (s.at f.a0) v] ++
               trailingEvents s) .success (v.zeroExtend 64) with
           rdata := v }) ∧
    (s.baseValid = false ∨ isEven f.a0 = false → TurnedAway (.readQueryField f) s)

/-- R210 with R211: two complete sequences, low first; the answer is `(low + 256*high) * 256`, exact. -/
def Obligations.BlockSizeIsExact : Prop :=
  ∀ (s : State) (f : Fields), s.Ready → s.Quiet →
    (s.baseValid = true → isEven f.a0 = true → isEven f.a1 = true →
     ∃ t low high res, exec (.getBlockSize f) s = .next t ∧
       res.toNat = (low.toNat + 256 * high.toNat) * 256 ∧
       run (if s.params.trailingResetUnlisted then 17 else 11) t = .next
         { s.finished 0x13 f (blockSizeEvents s f.a0 f.a1 low high) .success res with
           rdata := high
           qlow := low }) ∧
    (s.baseValid = false ∨ isEven f.a0 = false ∨ isEven f.a1 = false → TurnedAway (.getBlockSize f) s)

/-- R215: QUERY by key. FlashBase and an unrecognized key make no bus cycle; the other keys make the cycles and give the
answer of the operation they select. Where 64 bits do not hold BASE, which only AW > 64 allows, FlashBase's answer is free
(log 1). -/
def Obligations.QueryAnswersByKey : Prop :=
  ∀ (s : State) (f : Fields), s.Ready → s.Quiet →
    (s.baseValid = true →
     ∃ t, exec (.query f) s = .next t ∧
       (f.a0 = 0 → ∃ res, (s.base < 2 ^ 64 → res.toNat = s.base) ∧
         run 1 t = .next (s.finished 0x14 f [] .success res)) ∧
       (f.a0 = 1 → ∃ v, run 8 t = .next
         { s.finished 0x14 f
             (unlockEvents s.params.aw s.base ++ [wr (s.at 0xAAA) 0x0090, rd (s.at s.params.mfrCellOffset) v] ++
               resetEvents s.params.aw s.base) .success (v.zeroExtend 64) with
           rdata := v }) ∧
       (f.a0 = 2 →
         (∃ v : Cell, v.extractLsb' 0 8 ≠ 0x7E#8 ∧
           run 8 t = .next
             { s.finished 0x14 f
                 (unlockEvents s.params.aw s.base ++ [wr (s.at 0xAAA) 0x0090, rd (s.at s.params.devCellOffset) v] ++
                   resetEvents s.params.aw s.base) .success ((v.extractLsb' 0 8).zeroExtend 64) with
               rdata := v
               idacc := (v.extractLsb' 0 8).zeroExtend 24 }) ∨
         (∃ v r1 r2 : Cell, v.extractLsb' 0 8 = 0x7E#8 ∧
           run 10 t = .next
             { s.finished 0x14 f
                 (unlockEvents s.params.aw s.base ++
                   [wr (s.at 0xAAA) 0x0090, rd (s.at s.params.devCellOffset) v,
                     rd (s.at 0x1C) r1, rd (s.at 0x1E) r2] ++
                   resetEvents s.params.aw s.base) .success
                 ((r2.extractLsb' 0 8 ++ r1.extractLsb' 0 8 ++ 0x7E#8).zeroExtend 64) with
               rdata := r2
               idacc := r2.extractLsb' 0 8 ++ r1.extractLsb' 0 8 ++ 0x7E#8 })) ∧
       (f.a0 = 3 → ∃ v, run (if s.params.trailingResetUnlisted then 9 else 6) t = .next
         { s.finished 0x14 f
             (unlockEvents s.params.aw s.base ++
               [wr (s.at 0xAAA) 0x0090, wr (s.at 0xAA) 0x0098,
                 rd (s.at s.params.sizeFieldOffset) v] ++
               trailingEvents s) .success (v.zeroExtend 64) with
           rdata := v }) ∧
       (f.a0 = 4 → ∃ low high res, res.toNat = (low.toNat + 256 * high.toNat) * 256 ∧
         run (if s.params.trailingResetUnlisted then 17 else 11) t = .next
           { s.finished 0x14 f
               (blockSizeEvents s s.params.blkszLowOffset s.params.blkszHighOffset low high) .success res with
             rdata := high
             qlow := low }) ∧
       (5 ≤ f.a0 → run 1 t = .next (s.finished 0x14 f [] .unsupportedQuery 0))) ∧
    (s.baseValid = false → TurnedAway (.query f) s)

/-! ## Program and erase -/

/-- R240: WORD_PROGRAM: four writes, the poll, the reset on either outcome, then the response. -/
def Obligations.WordProgramSequence : Prop :=
  ∀ (s : State) (f : Fields), s.Ready → s.Quiet →
    (s.baseValid = true → isEven f.a0 = true →
     ∃ t vs ok, exec (.wordProgram f) s = .next t ∧ PollEnds s.params.pollCeiling.toNat f.d vs ok ∧
       run (vs.length + 8) t = .next
         { s.finished 0x20 f
             (unlockEvents s.params.aw s.base ++ [wr (s.at 0xAAA) 0x00A0, wr (s.at f.a0) f.d] ++
               vs.map (rd (s.at f.a0)) ++ resetEvents s.params.aw s.base)
             (if ok then .success else .timeout) 0 with
           wdata := f.d
           ptgt := s.at f.a0
           expect := f.d
           pollCnt := BitVec.ofNat 32 vs.length
           rdata := vs.getLastD s.rdata
           pres := ok }) ∧
    (s.baseValid = false ∨ isEven f.a0 = false → TurnedAway (.wordProgram f) s)

/-- R250: ERASE_BLOCK: the recovery reset, the double unlock around setup and confirm, the poll for 0xFFFF, the reset on
either outcome, then the response. -/
def Obligations.EraseBlockSequence : Prop :=
  ∀ (s : State) (f : Fields), s.Ready → s.Quiet →
    (s.baseValid = true → isEven f.a0 = true →
     ∃ t vs ok, exec (.eraseBlock f) s = .next t ∧ PollEnds s.params.pollCeiling.toNat 0xFFFF vs ok ∧
       run (vs.length + 13) t = .next
         { s.finished 0x21 f
             (resetEvents s.params.aw s.base ++ unlockEvents s.params.aw s.base ++ [wr (s.at 0xAAA) 0x0080] ++
               unlockEvents s.params.aw s.base ++ [wr (s.at f.a0) 0x0030] ++
               vs.map (rd (s.at f.a0)) ++ resetEvents s.params.aw s.base)
             (if ok then .success else .timeout) 0 with
           ptgt := s.at f.a0
           expect := 0xFFFF
           pollCnt := BitVec.ofNat 32 vs.length
           rdata := vs.getLastD s.rdata
           pres := ok }) ∧
    (s.baseValid = false ∨ isEven f.a0 = false → TurnedAway (.eraseBlock f) s)

/-- R260 to R262, R264: WRITE_BUFFER runs its pages as `BufferRun` says, and ends, whatever the device answers: every
page of min(REM, 32) words until none is left while its polls succeed, none after a poll that times out. -/
def Obligations.WriteBufferRunsItsPages : Prop :=
  ∀ (s : State) (f : Fields), s.Ready → s.Quiet →
    (s.baseValid = true → isEven f.a0 = true →
     ∃ t n u es st, exec (.writeBuffer f) s = .next t ∧
       BufferRun s (s.at f.a0) ((f.a1 + 1) / 2) 0 es st ∧
       run n t = .next u ∧
       u = { s.finished 0x22 f es st 0 with
         ptgt := u.ptgt
         expect := u.expect
         pollCnt := u.pollCnt
         rdata := u.rdata
         paddr := u.paddr
         rem := u.rem
         bw := u.bw
         wi := u.wi
         sidx := u.sidx
         wdata := u.wdata
         pres := u.pres
         draws := u.draws }) ∧
    (s.baseValid = false ∨ isEven f.a0 = false → TurnedAway (.writeBuffer f) s)

/-- The acceptance of WRITE_BUFFER with words to write: REM is `(len + 1) >> 1` formed without wrap (R262), the page is
`min(REM, 32)` words (R260), and nothing is fetched or written yet. That REM, PADDR, SIDX and BW are written in the
acceptance step is the model's choice (log 18). -/
def Obligations.WriteBufferOpensItsFirstPage : Prop :=
  ∀ (s : State) (f : Fields), s.Ready → s.baseValid = true → isEven f.a0 = true → f.a1 ≠ 0 →
    ∃ b : BitVec 6, b.toNat = min ((f.a1 + 1) / 2) 32 ∧
      exec (.writeBuffer f) s = .next
        { s.latched 0x22 f with
          rem := (f.a1 + 1) / 2
          paddr := s.at f.a0
          sidx := 0
          bw := b
          seq := .wbU1
          trace := s.trace ++ [reqEvent 0x22 f] }

/-! ## Read path -/

/-- R300: READ_BUFFER reads each cell once, just before its first byte, delivers the bytes in order, and ends with
`SUCCESS`, whatever the device answers. The length is one of AW bits (R100), which a decoded request always has. -/
def Obligations.ReadBufferCopies : Prop :=
  ∀ (s : State) (f : Fields), s.Ready → s.Quiet →
    (s.baseValid = true → f.a1 < 2 ^ s.params.aw →
     ∃ t n u es c v, exec (.readBuffer f) s = .next t ∧
       CopyRun s.params.aw (s.at f.a0) f.a1 0 c v es ∧
       run n t = .next u ∧
       u = { s.finished 0x23 f es .success 0 with ridx := f.a1, rdata := u.rdata, rcell := u.rcell }) ∧
    (s.baseValid = false → TurnedAway (.readBuffer f) s)

/-- R301: the bus cycles of a READ_BUFFER whose range does not wrap, those the operation's own trace gains: one read of
each cell that holds a requested byte, in rising order, and nothing else; and one delivery for each byte. With length 0
there are none. -/
def Obligations.ReadBufferReadsEachCellOnce : Prop :=
  ∀ (s : State) (f : Fields), s.Ready → s.Quiet → s.baseValid = true → s.at f.a0 + f.a1 ≤ 2 ^ s.params.aw →
    f.a1 < 2 ^ s.params.aw →
    ∃ t n u es, exec (.readBuffer f) s = .next t ∧ run n t = .next u ∧ u.seq = .idle ∧
      u.trace = s.trace ++ reqEvent 0x23 f :: (es ++ [respEvent .success 0]) ∧
      (busEvents es).map busAddr =
        (List.range (if f.a1 = 0 then 0 else (s.at f.a0 + f.a1 - 1) / 2 - s.at f.a0 / 2 + 1)).map
          (fun k => cellOf (s.at f.a0) + 2 * k) ∧
      (∀ e ∈ busEvents es, ∃ a v, e = .r a v) ∧
      (hostEvents es).length = f.a1 ∧ ∀ e ∈ hostEvents es, ∃ i b, e = .dst i b

/-- The flat copy of R300 under the reference responder in read-array mode: the bytes delivered are the array's, in
index order (the responder in State, its stored bytes: logs 6, 20, 25). -/
def Obligations.ReadBufferIsAFlatCopy : Prop :=
  ∀ (s : State) (f : Fields), s.Ready → s.Quiet → s.baseValid = true → f.a1 < 2 ^ s.params.aw →
    s.device.law = .responder → s.device.mode = .array → s.device.busy.isDone = true →
    ∃ t n u, exec (.readBuffer f) s = .next t ∧ run n t = .next u ∧
      u.seq = .idle ∧ u.status = .success ∧ u.device = s.device ∧
      u.hostTrace = s.hostTrace ++ .req 0x23 f.kind f.a0 f.a1 f.d ::
        ((List.range f.a1).map fun i => .dst i (s.device.stored (s.plus (s.at f.a0) i))) ++
        [.resp .success 0]

/-! ## Command cycles -/

/-- R160: the unlock cycles of every phase, and what follows each (10_state.md R30). The position `respond` is the
model's name for the response step of R13 (log 3). -/
def Obligations.UnlockCyclesInEveryPhase : Prop :=
  ∀ s : State, s.faulted = false → s.busFaulting = false →
    (∀ p q, (p, q) ∈ [(Seq.unlU1, Seq.unlU2), (.rst .u1, .rst .u2), (.midU1, .midU2), (.midRst .u1, .midRst .u2),
        (.didU1, .didU2), (.didRst .u1, .didRst .u2), (.rqf .u1, .rqf .u2), (.rqf (.rst .u1), .rqf (.rst .u2)),
        (.gbsLow .u1, .gbsLow .u2), (.gbsLow (.rst .u1), .gbsLow (.rst .u2)),
        (.gbsHigh .u1, .gbsHigh .u2), (.gbsHigh (.rst .u1), .gbsHigh (.rst .u2)),
        (.wpU1, .wpU2), (.wpRst .u1, .wpRst .u2), (.erRst0 .u1, .erRst0 .u2), (.erU1A, .erU2A),
        (.erU1B, .erU2B), (.erRst .u1, .erRst .u2), (.wbAbort .u1, .wbAbort .u2), (.wbRst .u1, .wbRst .u2)] →
      s.seq = p → exec .cycUnlock1 s = .next (s.cycled (s.at 0xAAA) 0x00AA q)) ∧
    (s.seq = .wbU1 → exec .cycUnlock1 s = .next (s.cycled (s.plus (s.pageOrigin s.paddr) 0xAAA) 0x00AA .wbU2)) ∧
    (∀ p q, (p, q) ∈ [(Seq.unlU2, Seq.respond .success 0), (.rst .u2, .rst .f0), (.midU2, .midEnter),
        (.midRst .u2, .midRst .f0), (.didU2, .didEnter), (.didRst .u2, .didRst .f0), (.rqf .u2, .rqf .enter),
        (.rqf (.rst .u2), .rqf (.rst .f0)), (.gbsLow .u2, .gbsLow .enter), (.gbsLow (.rst .u2), .gbsLow (.rst .f0)),
        (.gbsHigh .u2, .gbsHigh .enter), (.gbsHigh (.rst .u2), .gbsHigh (.rst .f0)),
        (.wpU2, .wpCmd), (.wpRst .u2, .wpRst .f0), (.erRst0 .u2, .erRst0 .f0), (.erU2A, .erSetup),
        (.erU2B, .erConfirm), (.erRst .u2, .erRst .f0), (.wbAbort .u2, .wbAbort .f0), (.wbRst .u2, .wbRst .f0)] →
      s.seq = p → exec .cycUnlock2 s = .next (s.cycled (s.at 0x554) 0x0055 q)) ∧
    (s.seq = .wbU2 → exec .cycUnlock2 s = .next (s.cycled (s.plus (s.pageOrigin s.paddr) 0x554) 0x0055 .wbLoad))

/-- R163: the reset cycle of every phase, and the response or position that follows it. The position `respond` and the
moment QLOW is written are the model's (logs 3, 18). -/
def Obligations.ResetCycleInEveryPhase : Prop :=
  ∀ s : State, s.faulted = false → s.busFaulting = false →
    (s.seq = .rst .f0 → exec .cycReset s = .next (s.cycled s.base 0x00F0 (.respond .success 0))) ∧
    (s.seq = .midRst .f0 →
      exec .cycReset s = .next (s.cycled s.base 0x00F0 (.respond .success (s.rdata.zeroExtend 64)))) ∧
    (s.seq = .didRst .f0 →
      exec .cycReset s = .next (s.cycled s.base 0x00F0 (.respond .success (s.idacc.zeroExtend 64)))) ∧
    (s.seq = .rqf (.rst .f0) →
      exec .cycReset s = .next (s.cycled s.base 0x00F0 (.respond .success (s.rdata.zeroExtend 64)))) ∧
    (s.seq = .gbsLow (.rst .f0) →
      exec .cycReset s = .next { s.cycled s.base 0x00F0 (.gbsHigh .u1) with qlow := s.rdata }) ∧
    (s.seq = .gbsHigh (.rst .f0) → ∃ res, res.toNat = (s.qlow.toNat + 256 * s.rdata.toNat) * 256 ∧
      exec .cycReset s = .next (s.cycled s.base 0x00F0 (.respond .success res))) ∧
    (s.seq = .wpRst .f0 →
      exec .cycReset s = .next (s.cycled s.base 0x00F0 (.respond (if s.pres then .success else .timeout) 0))) ∧
    (s.seq = .erRst0 .f0 → exec .cycReset s = .next (s.cycled s.base 0x00F0 .erU1A)) ∧
    (s.seq = .erRst .f0 →
      exec .cycReset s = .next (s.cycled s.base 0x00F0 (.respond (if s.pres then .success else .timeout) 0))) ∧
    (s.seq = .wbAbort .f0 → exec .cycReset s = .next (s.cycled s.base 0x00F0 (.respond .timeout 0))) ∧
    (s.seq = .wbRst .f0 → exec .cycReset s = .next (s.cycled s.base 0x00F0 (.respond .success 0)))

/-- R111: the cycles that follow an unlock at BASE + 0xAAA, and the CFI entry at BASE + 0xAA. -/
def Obligations.EntryAndSetupCycles : Prop :=
  ∀ s : State, s.faulted = false → s.busFaulting = false →
    (∀ p q, (p, q) ∈ [(Seq.midEnter, Seq.midRead), (.didEnter, .didRead), (.rqf .enter, .rqf .cfi),
        (.gbsLow .enter, .gbsLow .cfi), (.gbsHigh .enter, .gbsHigh .cfi)] →
      s.seq = p → exec .cycIdEntry s = .next (s.cycled (s.at 0xAAA) 0x0090 q)) ∧
    (∀ p q, (p, q) ∈ [(Seq.rqf .cfi, Seq.rqf .read), (.gbsLow .cfi, .gbsLow .read), (.gbsHigh .cfi, .gbsHigh .read)] →
      s.seq = p → exec .cycCfiEntry s = .next (s.cycled (s.at 0xAA) 0x0098 q)) ∧
    (s.seq = .wpCmd → exec .cycWordPgm s = .next (s.cycled (s.at 0xAAA) 0x00A0 .wpData)) ∧
    (s.seq = .erSetup → exec .cycEraseSetup s = .next (s.cycled (s.at 0xAAA) 0x0080 .erU1B))

/-- R250: erase confirm at the block address, then the poll for 0xFFFF opens; with `POLL_CEILING = 0` it has already
timed out (42_poll.md R181 (c)). That PTGT, EXPECT, POLLCNT and that timeout's PRES are written in the confirm cycle's
step is the model's choice (log 18). -/
def Obligations.EraseConfirmOpensThePoll : Prop :=
  ∀ s : State, s.faulted = false → s.busFaulting = false → s.seq = .erConfirm →
    exec .cycEraseConfirm s = .next
      { s.cycled (s.at s.a0) 0x0030 (if s.params.pollCeiling = 0 then .erRst .u1 else .erPoll) with
        ptgt := s.at s.a0
        expect := 0xFFFF
        pollCnt := 0
        pres := if s.params.pollCeiling = 0 then false else s.pres }

/-- R260: the write-buffer load and word-count cycles at the page address. That WI = 0 is written in the count cycle's
step is the model's choice (log 18). -/
def Obligations.BufferLoadAndCountCycles : Prop :=
  ∀ s : State, s.faulted = false → s.busFaulting = false →
    (s.seq = .wbLoad → exec .cycWbLoad s = .next (s.cycled s.paddr 0x0025 .wbCount)) ∧
    (∀ n : BitVec 5, s.seq = .wbCount →
      exec (.cycWbCount n) s = .next { s.cycled s.paddr (BitVec.ofNat 16 n.toNat) .wbSrc0 with wi := 0 })

/-- R260: write-buffer confirm at the page address, then the poll for the last word at its address opens.
That PTGT, EXPECT, POLLCNT and, with `POLL_CEILING = 0`, PRES are written in the confirm cycle's step is the model's
choice (log 18). -/
def Obligations.BufferConfirmOpensThePoll : Prop :=
  ∀ s : State, s.faulted = false → s.busFaulting = false → s.seq = .wbConfirm →
    exec .cycWbConfirm s = .next
      { s.cycled s.paddr 0x0029 (if s.params.pollCeiling = 0 then .wbAbort .u1 else .wbPoll) with
        ptgt := s.plus s.paddr (2 * (s.bw - 1).toNat)
        expect := s.wdata
        pollCnt := 0
        pres := if s.params.pollCeiling = 0 then false else s.pres }

/-- R240, R260: the data cycle, of WORD_PROGRAM at its target (then the poll opens) and of WRITE_BUFFER at word WI of the
page (then the next word, or the confirm cycle). That WDATA, WI and the poll's PTGT, EXPECT, POLLCNT and PRES are written
in the data cycle's step is the model's choice (log 18). -/
def Obligations.DataCycles : Prop :=
  ∀ (s : State) (v : Cell), s.faulted = false → s.busFaulting = false →
    (s.seq = .wpData → exec (.cycData v) s = .next
      { s.cycled (s.at s.a0) v (if s.params.pollCeiling = 0 then .wpRst .u1 else .wpPoll) with
        wdata := v
        ptgt := s.at s.a0
        expect := v
        pollCnt := 0
        pres := if s.params.pollCeiling = 0 then false else s.pres }) ∧
    (s.seq = .wbData → exec (.cycData v) s = .next
      { s.cycled (s.plus s.paddr (2 * s.wi.toNat)) v
          (if s.wi + 1 = s.bw then .wbConfirm else .wbSrc0) with
        wdata := v
        wi := s.wi + 1 })

/-- R364: a bus fault on a bus cycle: the event of that very cycle is still appended (a write with its address and
value, a read with its address and an unspecified value, which goes to RDATA), FAULTED is set, SEQ is FAULTED, and no
further step is taken; a command cycle executed at its position does the same. The fault indication as a list, and that
the value read goes to RDATA, are the model's (logs 7, 16). -/
def Obligations.BusFaultStopsTheBlock : Prop :=
  ∀ s : State, s.faulted = false → s.resetPort = [] → s.busFaulting = true →
    (∀ a v, s.comingWrite = some (a, v) → ∃ t, step s = .next t ∧ s.StoppedBy (wr a v) t) ∧
    (∀ a, s.comingRead = some a → ∃ t v, step s = .next t ∧ s.StoppedBy (rd a v) t ∧ t.rdata = v) ∧
    (∀ i a v, s.cycleInstr = some i → s.comingWrite = some (a, v) →
      ∃ t, exec i s = .next t ∧ s.StoppedBy (wr a v) t) ∧
    (∀ t, s.comingWrite = none → s.comingRead = none → step s = .next t → t.busTrace = s.busTrace)

/-! ## Whole-machine rules -/

/-- R22, R23: BASE and BASE_VALID are written by INIT and by hardware reset only. That INIT writes them in its
acceptance step, and that reset gives BASE a value, is the model's (logs 2, 18, 22). -/
def Obligations.BaseWrittenOnlyByInit : Prop :=
  ∀ (s t : State), step s = .next t → t.base ≠ s.base ∨ t.baseValid ≠ s.baseValid →
    s.resetAsserted = true ∨
      (s.seq = .idle ∧ s.baseValid = false ∧ t.baseValid = true ∧
        ∃ r rest, s.requests = r :: rest ∧ opOf r.word = 0x01 ∧
          t.base = (fieldsOf s.params.aw r.word).a0 ∧ isEven t.base = true)

/-- R24: the configuration cannot change while the block runs (held in State: log 4). -/
def Obligations.ConfigurationIsConstant : Prop :=
  ∀ (s t : State), step s = .next t → t.params = s.params

/-- R26: the latched operands are read-only for the rest of the operation. -/
def Obligations.LatchedOperandsAreReadOnly : Prop :=
  ∀ (s t : State), step s = .next t → s.seq ≠ .idle → s.resetAsserted = false →
    t.op = s.op ∧ t.kind = s.kind ∧ t.a0 = s.a0 ∧ t.a1 = s.a1 ∧ t.d = s.d

/-- R32, R33: STATUS and RESULT are written by the response step only, and by hardware reset. The position `respond`,
and that reset gives RESULT a value, are the model's (logs 2, 3, 22). -/
def Obligations.StatusWrittenOnlyByTheResponse : Prop :=
  ∀ (s t : State), step s = .next t → t.status ≠ s.status ∨ t.result ≠ s.result →
    s.resetAsserted = true ∨
      ∃ st res, s.seq = .respond st res ∧ t.status = st ∧ t.result = res ∧ t.seq = .idle ∧
        t.trace = s.trace ++ [respEvent st res]

/-- R111: the block emits no other command value: a write on the bus is WRITE16's, at A0 of D, or the command cycle SEQ
names, at the address R111 gives it and with the value it is encoded as. -/
def Obligations.BusWritesAreEncodedCycles : Prop :=
  ∀ (s t : State) (a : Nat) (v : Cell), step s = .next t → t.trace = s.trace ++ [wr a v] →
    s.comingWrite = some (a, v) ∧
      ((s.seq = .wrCyc ∧ a = s.a0 ∧ v = s.d) ∨
        ∃ i p, s.cycleInstr = some i ∧ encode s.params.aw i = .cycle p v)

/-- R320: a value read is the device's answer after the bus trace so far, but for a bus-faulted cycle; it goes to
RDATA. How the device is held, and that a bus-faulted read too goes to RDATA and has been seen by the device, are the
model's choices (logs 5, 6, 16, 23). -/
def Obligations.ReadsAreTheDevicesAnswers : Prop :=
  ∀ (s t : State) (a : Nat) (v : Cell), step s = .next t → t.trace = s.trace ++ [rd a v] →
    t.rdata = v ∧ t.device = s.device.afterRead ∧
      (s.busFaulting = false → v = s.device.answer s.params.aw s.busTrace a)

/-- R420: every operation ends: from a state that meets the loop invariants the block comes back to IDLE, or to
FAULTED, whatever the device answers (the bounds themselves are in the statements of the operations). The length A1 is
one of AW bits, as `InRange` says, which every step keeps (StepKeepsBusAligned). -/
def Obligations.EveryOperationEnds : Prop :=
  ∀ s : State, s.resetPort = [] → s.faulted = false → s.seq ≠ .faulted → PollBounded s → PageBounded s →
    s.a1 < 2 ^ s.params.aw → ∃ n t, run n s = .next t ∧ (t.seq = .idle ∨ t.faulted = true)

/-! ## Invariants every step keeps -/

/-- R34: FAULTED and SEQ agree after every step. -/
def Obligations.StepKeepsFaultAgreement : Prop :=
  ∀ (s t : State), FaultAgrees s → step s = .next t → FaultAgrees t

/-- The device's array keeps its canonical form (log 20). -/
def Obligations.StepKeepsArrayCanonical : Prop :=
  ∀ (s t : State), ArrayCanonical s → step s = .next t → ArrayCanonical t

/-- R28: POLLCNT counts reads done, 0 to `POLL_CEILING`, and never overflows. After a hardware reset it holds because the
model gives POLLCNT, which R40 leaves unspecified, the value 0 (logs 2, 22). -/
def Obligations.StepKeepsPollBounded : Prop :=
  ∀ (s t : State), PollBounded s → step s = .next t → PollBounded t

/-- R27, R260: a page holds 1 to 32 words, at most those that remain, and the word index stays inside it. -/
def Obligations.StepKeepsPageBounded : Prop :=
  ∀ (s t : State), PageBounded s → step s = .next t → PageBounded t

/-- R104: RESULT is 0 whenever the status is not SUCCESS (with the position `respond`: log 3). -/
def Obligations.StepKeepsErrorsCarryZero : Prop :=
  ∀ (s t : State), ErrorsCarryZero s → step s = .next t → ErrorsCarryZero t

/-- R68 and R36: every bus access is to an even address of AW bits, and every address register holds AW bits (R22, R26,
R27). After a hardware reset the registers R40 leaves unspecified hold 0 (logs 2, 22). -/
def Obligations.StepKeepsBusAligned : Prop :=
  (∀ (s t : State), InRange s → step s = .next t → InRange t) ∧
    ∀ (s t : State), Aligned s → step s = .next t → Aligned t

/-- R162: every privileged command follows a fresh two-cycle unlock, the query mode entry by way of the ID-read entry
(R207). -/
def Obligations.StepKeepsFreshUnlock : Prop :=
  ∀ (s t : State), FreshlyUnlocked s → step s = .next t → FreshlyUnlocked t

/-! ## The device's array under the reference responder -/

/-- A cell reads back what was written, every other byte as before, and the canonical form is kept (the array as bytes
is the model's, log 20). -/
def Obligations.ArrayReadAfterWrite : Prop :=
  ∀ (m : Memory) (a : Nat) (v : Cell), Memory.wf m →
    Memory.wf (Memory.writeCell a v m) ∧ Memory.readCell (Memory.writeCell a v m) a = v ∧
      ∀ k : Nat, k ≠ cellKey a → k ≠ cellKey a + 1 →
        Memory.readByte (Memory.writeCell a v m) k = Memory.readByte m k

/-- R324: from any state of the responder the reset sequence leads to ARRAY, and what was pending is dropped. R334: where
`RESP` or file 41 knows the sequence, an in-flight buffered program included, the array is as it was. R330, U6: after a
write at which `RESP` stops, every answer is free until a reset is heard in full, and every byte of the array is free after
it. What counts as such a write, and the names of the free values, are the model's (logs 5, 6, 20, 25). -/
def Obligations.ResponderReset : Prop :=
  ∀ (aw : Nat) (dv : Device), 12 ≤ aw → dv.law = .responder →
    (let t := Device.seen aw (resetEvents aw dv.rbase) dv
     t.mode = .array ∧ t.busy = .reads 0 ∧ t.pend = [] ∧ t.law = .responder ∧
        ((dv.mode = .array ∨ dv.mode = .id ∨ dv.mode = .cfi ∨ dv.mode = .ers1) ∨ (dv.mode = .wbData ∧ 0 < dv.wbn) ∨
            (dv.busy.isDone = true ∧
              (dv.mode = .wbCnt ∨ dv.mode = .wbConf ∨ (dv.mode = .u2 ∧ dv.heard = .both))) →
          t.arr = dv.arr ∧ ∀ k, t.stored k = dv.stored k)) ∧
    (∀ a v, dv.respWrite aw a v = none → ¬(dv.heard = .both ∧ dv.isReset aw a v = true) →
      let w := dv.write aw a v
      (∀ bt b, w.answer aw bt b = w.freeAnswer bt b) ∧
        (dv.restarts aw a v = false →
          let u := Device.seen aw (resetEvents aw dv.rbase) w
          u.mode = .array ∧ ∀ k, u.stored k = Config.unknownByte u.losses k)) ∧
    (dv.isFree = true → dv.afterRead.isFree = true ∧
      ∀ a v, ¬(dv.heard = .both ∧ dv.isReset aw a v = true) → (dv.write aw a v).isFree = true)

/-- R326 under the responder: after a word program and its busy reads the cell reads the value, every other byte is as
before, and each busy read showed another value (logs 6, 20, 25). -/
def Obligations.ResponderProgramsAWord : Prop :=
  ∀ (aw : Nat) (dv : Device) (a : Nat) (v : Cell) (n : Nat) (vs : List Cell),
    12 ≤ aw → dv.law = .responder → dv.mode = .array → dv.busyReads = .reads n → vs.length = n →
    let p := Device.seen aw (unlockEvents aw dv.rbase ++ [wr (addAW aw dv.rbase 0xAAA) 0x00A0, wr a v]) dv
    let t := Device.seen aw (vs.map (rd a)) p
    t.mode = .array ∧ t.busy = .reads 0 ∧ t.arr = Memory.writeCell a v dv.arr ∧
      (∀ bt, t.answer aw bt a = v) ∧ (∀ k, k ≠ cellKey a → k ≠ cellKey a + 1 → t.stored k = dv.stored k) ∧
      ∀ k bt, k < n → (Device.seen aw ((vs.take k).map (rd a)) p).answer aw bt a ≠ v

/-- R327 under the responder: after an erase and its busy reads every byte of the block reads 0xFF, and every byte
outside it as before (logs 6, 20, 25). -/
def Obligations.ResponderErasesABlock : Prop :=
  ∀ (aw : Nat) (dv : Device) (a : Nat) (n : Nat) (vs : List Cell),
    12 ≤ aw → dv.law = .responder → dv.mode = .array → dv.pend = [] → dv.busyReads = .reads n → vs.length = n →
    Memory.wf dv.arr →
    let lo := a / dv.rblock * dv.rblock
    let t := Device.seen aw (vs.map (rd a)) (Device.seen aw
      (unlockEvents aw dv.rbase ++ [wr (addAW aw dv.rbase 0xAAA) 0x0080] ++ unlockEvents aw dv.rbase ++ [wr a 0x0030]) dv)
    t.mode = .array ∧ Memory.wf t.arr ∧
      (∀ k, lo ≤ k → k < lo + dv.rblock → t.stored k = 0xFF) ∧
      ∀ k, ¬(lo ≤ k ∧ k < lo + dv.rblock) → t.stored k = dv.stored k
end

