-- ==== Sys2Proof/Laws/Operands.lean ====
section
/-! SUPPORT. What the value computations of 30_encoding.md R113 compute, as numbers, and the sums of addresses (20_memory.md
R66) with their evenness (R68). -/

namespace Sys2Proof.Machine

/-! ## Addresses -/

theorem isEven_iff (a : Nat) : isEven a = true ↔ a % 2 = 0 := by
  simp [isEven]

/-! The address forms as sums: the form in which they meet. -/

@[simp] theorem State.plus_def (s : State) (a b : Nat) : s.plus a b = addAW s.params.aw a b := rfl
@[simp] theorem State.at_def (s : State) (o : Nat) : s.at o = addAW s.params.aw s.base o := rfl
@[simp] theorem State.pageWord_def (s : State) (i : BitVec 6) :
    s.pageWord i = addAW s.params.aw s.paddr (2 * i.toNat) := rfl
@[simp] theorem State.srcIndex_def (s : State) (i n : Nat) : s.srcIndex i n = addAW (s.params.aw + 1) i n := rfl
@[simp] theorem State.readByteAddr_def (s : State) :
    s.readByteAddr = addAW s.params.aw s.base (s.a0 + s.ridx) := by
  simp [State.readByteAddr, State.plus, State.at, addAW, Nat.add_assoc]

/-- Every sum has the machine's width. -/
theorem addAW_lt (aw : Nat) (a b : Nat) : addAW aw a b < 2 ^ aw := Nat.mod_lt _ (Nat.two_pow_pos aw)

/-- Sums of addresses associate. -/
@[simp] theorem addAW_addAW (aw : Nat) (a b c : Nat) : addAW aw (addAW aw a b) c = addAW aw a (b + c) := by
  simp [addAW, Nat.add_assoc]

@[simp] theorem addAW_addAW_right (aw : Nat) (a b c : Nat) : addAW aw a (addAW aw b c) = addAW aw a (b + c) := by
  simp [addAW]

/-- Adding nothing to an address of the width. -/
theorem addAW_zero {aw a : Nat} (h : a < 2 ^ aw) : addAW aw a 0 = a := Nat.mod_eq_of_lt h

/-- The evenness of a sum (20_memory.md R68), at every width. -/
theorem isEven_addAW {aw a b : Nat} (h1 : isEven a = true) (h2 : isEven b = true) :
    isEven (addAW aw a b) = true := by
  rw [isEven_iff] at *
  cases aw with
  | zero => simp [addAW, Nat.mod_one]
  | succ n =>
    unfold addAW
    rw [Nat.mod_mod_of_dvd _ ⟨2 ^ n, by rw [Nat.pow_succ, Nat.mul_comm]⟩]
    omega

theorem isEven_plus {s : State} {a b : Nat} (h1 : isEven a = true) (h2 : isEven b = true) :
    isEven (s.plus a b) = true := isEven_addAW h1 h2

theorem isEven_at {s : State} {b : Nat} (h1 : isEven s.base = true) (h2 : isEven b = true) :
    isEven (s.at b) = true := isEven_addAW h1 h2

@[simp] theorem isEven_cellOf (a : Nat) : isEven (cellOf a) = true := by
  rw [isEven_iff, cellOf]; omega

theorem isEven_pageWord {s : State} (i : BitVec 6) (h : isEven s.paddr = true) : isEven (s.pageWord i) = true :=
  isEven_plus h (by rw [isEven_iff]; omega)

/-! ## Values -/

/-- The three ID bytes stand in their places (43_ident_query.md R203). -/
theorem idHigh_idMid_idLow (v r1 r2 : Cell) :
    idHigh (idMid (idLow v) r1) r2 = lowByte r2 ++ lowByte r1 ++ lowByte v := by
  apply BitVec.eq_of_getLsbD_eq
  intro i hi
  simp only [idHigh, idMid, idLow, BitVec.getLsbD_append, BitVec.getLsbD_extractLsb', BitVec.truncate_eq_setWidth,
    BitVec.getLsbD_setWidth]
  by_cases h1 : i < 8
  · simp [h1, show i < 16 by omega, hi]
  · by_cases h2 : i < 16
    · simp [h1, h2, show i - 8 < 8 by omega]
    · simp [h1, h2, show ¬i - 8 < 8 by omega, show i - 8 - 8 = i - 16 by omega]

/-- The block size is exact in 64 bits (R211). -/
theorem blockSize_toNat (low high : Cell) :
    (blockSize low high).toNat = (low.toNat + 256 * high.toNat) * 256 := by
  have h1 := low.isLt
  have h2 := high.isLt
  have e : (256 : BitVec 64).toNat = 256 := rfl
  simp only [blockSize, BitVec.truncate_eq_setWidth, BitVec.toNat_mul, BitVec.toNat_add, BitVec.toNat_setWidth, e]
  omega

/-- A page holds `min(REM, 32)` words (R260). -/
theorem blockWords_toNat (rem : Nat) : (blockWords rem).toNat = min rem 32 := by
  simp only [blockWords, Config.wbPageWords, BitVec.toNat_ofNat]
  omega

/-- The count field is `block_words - 1` (R111, R260). -/
theorem countField_toNat {bw : BitVec 6} (h1 : 1 ≤ bw.toNat) (h2 : bw.toNat ≤ 32) :
    (countField bw).toNat = bw.toNat - 1 := by
  simp only [countField, BitVec.truncate_eq_setWidth, BitVec.toNat_setWidth]
  bv_omega

end Sys2Proof.Machine
end

