-- ==== Sys2Proof/Laws/State.lean ====
section
/-! SUPPORT. One lemma per field per update of the state, so that no later proof unfolds a record update. -/

namespace Sys2Proof.Machine

/-! `State.goTo`. -/

@[simp] theorem State.goTo_base (q : Seq) (s : State) : (s.goTo q).base = s.base := rfl
@[simp] theorem State.goTo_baseValid (q : Seq) (s : State) : (s.goTo q).baseValid = s.baseValid := rfl
@[simp] theorem State.goTo_op (q : Seq) (s : State) : (s.goTo q).op = s.op := rfl
@[simp] theorem State.goTo_kind (q : Seq) (s : State) : (s.goTo q).kind = s.kind := rfl
@[simp] theorem State.goTo_a0 (q : Seq) (s : State) : (s.goTo q).a0 = s.a0 := rfl
@[simp] theorem State.goTo_a1 (q : Seq) (s : State) : (s.goTo q).a1 = s.a1 := rfl
@[simp] theorem State.goTo_d (q : Seq) (s : State) : (s.goTo q).d = s.d := rfl
@[simp] theorem State.goTo_ptgt (q : Seq) (s : State) : (s.goTo q).ptgt = s.ptgt := rfl
@[simp] theorem State.goTo_expect (q : Seq) (s : State) : (s.goTo q).expect = s.expect := rfl
@[simp] theorem State.goTo_pollCnt (q : Seq) (s : State) : (s.goTo q).pollCnt = s.pollCnt := rfl
@[simp] theorem State.goTo_rdata (q : Seq) (s : State) : (s.goTo q).rdata = s.rdata := rfl
@[simp] theorem State.goTo_paddr (q : Seq) (s : State) : (s.goTo q).paddr = s.paddr := rfl
@[simp] theorem State.goTo_rem (q : Seq) (s : State) : (s.goTo q).rem = s.rem := rfl
@[simp] theorem State.goTo_bw (q : Seq) (s : State) : (s.goTo q).bw = s.bw := rfl
@[simp] theorem State.goTo_wi (q : Seq) (s : State) : (s.goTo q).wi = s.wi := rfl
@[simp] theorem State.goTo_sidx (q : Seq) (s : State) : (s.goTo q).sidx = s.sidx := rfl
@[simp] theorem State.goTo_wdata (q : Seq) (s : State) : (s.goTo q).wdata = s.wdata := rfl
@[simp] theorem State.goTo_idacc (q : Seq) (s : State) : (s.goTo q).idacc = s.idacc := rfl
@[simp] theorem State.goTo_qlow (q : Seq) (s : State) : (s.goTo q).qlow = s.qlow := rfl
@[simp] theorem State.goTo_ridx (q : Seq) (s : State) : (s.goTo q).ridx = s.ridx := rfl
@[simp] theorem State.goTo_rcell (q : Seq) (s : State) : (s.goTo q).rcell = s.rcell := rfl
@[simp] theorem State.goTo_pres (q : Seq) (s : State) : (s.goTo q).pres = s.pres := rfl
@[simp] theorem State.goTo_seq (q : Seq) (s : State) : (s.goTo q).seq = q := rfl
@[simp] theorem State.goTo_status (q : Seq) (s : State) : (s.goTo q).status = s.status := rfl
@[simp] theorem State.goTo_result (q : Seq) (s : State) : (s.goTo q).result = s.result := rfl
@[simp] theorem State.goTo_faulted (q : Seq) (s : State) : (s.goTo q).faulted = s.faulted := rfl
@[simp] theorem State.goTo_params (q : Seq) (s : State) : (s.goTo q).params = s.params := rfl
@[simp] theorem State.goTo_requests (q : Seq) (s : State) : (s.goTo q).requests = s.requests := rfl
@[simp] theorem State.goTo_srcBuf (q : Seq) (s : State) : (s.goTo q).srcBuf = s.srcBuf := rfl
@[simp] theorem State.goTo_faultPort (q : Seq) (s : State) : (s.goTo q).faultPort = s.faultPort := rfl
@[simp] theorem State.goTo_resetPort (q : Seq) (s : State) : (s.goTo q).resetPort = s.resetPort := rfl
@[simp] theorem State.goTo_device (q : Seq) (s : State) : (s.goTo q).device = s.device := rfl
@[simp] theorem State.goTo_trace (q : Seq) (s : State) : (s.goTo q).trace = s.trace := rfl
@[simp] theorem State.goTo_draws (q : Seq) (s : State) : (s.goTo q).draws = s.draws := rfl

/-! `State.reply`. -/

@[simp] theorem State.reply_base (st : Status) (res : BitVec 64) (s : State) : (s.reply st res).base = s.base := rfl
@[simp] theorem State.reply_baseValid (st : Status) (res : BitVec 64) (s : State) : (s.reply st res).baseValid = s.baseValid := rfl
@[simp] theorem State.reply_op (st : Status) (res : BitVec 64) (s : State) : (s.reply st res).op = s.op := rfl
@[simp] theorem State.reply_kind (st : Status) (res : BitVec 64) (s : State) : (s.reply st res).kind = s.kind := rfl
@[simp] theorem State.reply_a0 (st : Status) (res : BitVec 64) (s : State) : (s.reply st res).a0 = s.a0 := rfl
@[simp] theorem State.reply_a1 (st : Status) (res : BitVec 64) (s : State) : (s.reply st res).a1 = s.a1 := rfl
@[simp] theorem State.reply_d (st : Status) (res : BitVec 64) (s : State) : (s.reply st res).d = s.d := rfl
@[simp] theorem State.reply_ptgt (st : Status) (res : BitVec 64) (s : State) : (s.reply st res).ptgt = s.ptgt := rfl
@[simp] theorem State.reply_expect (st : Status) (res : BitVec 64) (s : State) : (s.reply st res).expect = s.expect := rfl
@[simp] theorem State.reply_pollCnt (st : Status) (res : BitVec 64) (s : State) : (s.reply st res).pollCnt = s.pollCnt := rfl
@[simp] theorem State.reply_rdata (st : Status) (res : BitVec 64) (s : State) : (s.reply st res).rdata = s.rdata := rfl
@[simp] theorem State.reply_paddr (st : Status) (res : BitVec 64) (s : State) : (s.reply st res).paddr = s.paddr := rfl
@[simp] theorem State.reply_rem (st : Status) (res : BitVec 64) (s : State) : (s.reply st res).rem = s.rem := rfl
@[simp] theorem State.reply_bw (st : Status) (res : BitVec 64) (s : State) : (s.reply st res).bw = s.bw := rfl
@[simp] theorem State.reply_wi (st : Status) (res : BitVec 64) (s : State) : (s.reply st res).wi = s.wi := rfl
@[simp] theorem State.reply_sidx (st : Status) (res : BitVec 64) (s : State) : (s.reply st res).sidx = s.sidx := rfl
@[simp] theorem State.reply_wdata (st : Status) (res : BitVec 64) (s : State) : (s.reply st res).wdata = s.wdata := rfl
@[simp] theorem State.reply_idacc (st : Status) (res : BitVec 64) (s : State) : (s.reply st res).idacc = s.idacc := rfl
@[simp] theorem State.reply_qlow (st : Status) (res : BitVec 64) (s : State) : (s.reply st res).qlow = s.qlow := rfl
@[simp] theorem State.reply_ridx (st : Status) (res : BitVec 64) (s : State) : (s.reply st res).ridx = s.ridx := rfl
@[simp] theorem State.reply_rcell (st : Status) (res : BitVec 64) (s : State) : (s.reply st res).rcell = s.rcell := rfl
@[simp] theorem State.reply_pres (st : Status) (res : BitVec 64) (s : State) : (s.reply st res).pres = s.pres := rfl
@[simp] theorem State.reply_seq (st : Status) (res : BitVec 64) (s : State) : (s.reply st res).seq = .respond st res := rfl
@[simp] theorem State.reply_status (st : Status) (res : BitVec 64) (s : State) : (s.reply st res).status = s.status := rfl
@[simp] theorem State.reply_result (st : Status) (res : BitVec 64) (s : State) : (s.reply st res).result = s.result := rfl
@[simp] theorem State.reply_faulted (st : Status) (res : BitVec 64) (s : State) : (s.reply st res).faulted = s.faulted := rfl
@[simp] theorem State.reply_params (st : Status) (res : BitVec 64) (s : State) : (s.reply st res).params = s.params := rfl
@[simp] theorem State.reply_requests (st : Status) (res : BitVec 64) (s : State) : (s.reply st res).requests = s.requests := rfl
@[simp] theorem State.reply_srcBuf (st : Status) (res : BitVec 64) (s : State) : (s.reply st res).srcBuf = s.srcBuf := rfl
@[simp] theorem State.reply_faultPort (st : Status) (res : BitVec 64) (s : State) : (s.reply st res).faultPort = s.faultPort := rfl
@[simp] theorem State.reply_resetPort (st : Status) (res : BitVec 64) (s : State) : (s.reply st res).resetPort = s.resetPort := rfl
@[simp] theorem State.reply_device (st : Status) (res : BitVec 64) (s : State) : (s.reply st res).device = s.device := rfl
@[simp] theorem State.reply_trace (st : Status) (res : BitVec 64) (s : State) : (s.reply st res).trace = s.trace := rfl
@[simp] theorem State.reply_draws (st : Status) (res : BitVec 64) (s : State) : (s.reply st res).draws = s.draws := rfl

/-! `State.respond`. -/

@[simp] theorem State.respond_base (st : Status) (res : BitVec 64) (s : State) : (s.respond st res).base = s.base := rfl
@[simp] theorem State.respond_baseValid (st : Status) (res : BitVec 64) (s : State) : (s.respond st res).baseValid = s.baseValid := rfl
@[simp] theorem State.respond_op (st : Status) (res : BitVec 64) (s : State) : (s.respond st res).op = s.op := rfl
@[simp] theorem State.respond_kind (st : Status) (res : BitVec 64) (s : State) : (s.respond st res).kind = s.kind := rfl
@[simp] theorem State.respond_a0 (st : Status) (res : BitVec 64) (s : State) : (s.respond st res).a0 = s.a0 := rfl
@[simp] theorem State.respond_a1 (st : Status) (res : BitVec 64) (s : State) : (s.respond st res).a1 = s.a1 := rfl
@[simp] theorem State.respond_d (st : Status) (res : BitVec 64) (s : State) : (s.respond st res).d = s.d := rfl
@[simp] theorem State.respond_ptgt (st : Status) (res : BitVec 64) (s : State) : (s.respond st res).ptgt = s.ptgt := rfl
@[simp] theorem State.respond_expect (st : Status) (res : BitVec 64) (s : State) : (s.respond st res).expect = s.expect := rfl
@[simp] theorem State.respond_pollCnt (st : Status) (res : BitVec 64) (s : State) : (s.respond st res).pollCnt = s.pollCnt := rfl
@[simp] theorem State.respond_rdata (st : Status) (res : BitVec 64) (s : State) : (s.respond st res).rdata = s.rdata := rfl
@[simp] theorem State.respond_paddr (st : Status) (res : BitVec 64) (s : State) : (s.respond st res).paddr = s.paddr := rfl
@[simp] theorem State.respond_rem (st : Status) (res : BitVec 64) (s : State) : (s.respond st res).rem = s.rem := rfl
@[simp] theorem State.respond_bw (st : Status) (res : BitVec 64) (s : State) : (s.respond st res).bw = s.bw := rfl
@[simp] theorem State.respond_wi (st : Status) (res : BitVec 64) (s : State) : (s.respond st res).wi = s.wi := rfl
@[simp] theorem State.respond_sidx (st : Status) (res : BitVec 64) (s : State) : (s.respond st res).sidx = s.sidx := rfl
@[simp] theorem State.respond_wdata (st : Status) (res : BitVec 64) (s : State) : (s.respond st res).wdata = s.wdata := rfl
@[simp] theorem State.respond_idacc (st : Status) (res : BitVec 64) (s : State) : (s.respond st res).idacc = s.idacc := rfl
@[simp] theorem State.respond_qlow (st : Status) (res : BitVec 64) (s : State) : (s.respond st res).qlow = s.qlow := rfl
@[simp] theorem State.respond_ridx (st : Status) (res : BitVec 64) (s : State) : (s.respond st res).ridx = s.ridx := rfl
@[simp] theorem State.respond_rcell (st : Status) (res : BitVec 64) (s : State) : (s.respond st res).rcell = s.rcell := rfl
@[simp] theorem State.respond_pres (st : Status) (res : BitVec 64) (s : State) : (s.respond st res).pres = s.pres := rfl
@[simp] theorem State.respond_seq (st : Status) (res : BitVec 64) (s : State) : (s.respond st res).seq = .idle := rfl
@[simp] theorem State.respond_status (st : Status) (res : BitVec 64) (s : State) : (s.respond st res).status = st := rfl
@[simp] theorem State.respond_result (st : Status) (res : BitVec 64) (s : State) : (s.respond st res).result = res := rfl
@[simp] theorem State.respond_faulted (st : Status) (res : BitVec 64) (s : State) : (s.respond st res).faulted = s.faulted := rfl
@[simp] theorem State.respond_params (st : Status) (res : BitVec 64) (s : State) : (s.respond st res).params = s.params := rfl
@[simp] theorem State.respond_requests (st : Status) (res : BitVec 64) (s : State) : (s.respond st res).requests = s.requests := rfl
@[simp] theorem State.respond_srcBuf (st : Status) (res : BitVec 64) (s : State) : (s.respond st res).srcBuf = s.srcBuf := rfl
@[simp] theorem State.respond_faultPort (st : Status) (res : BitVec 64) (s : State) : (s.respond st res).faultPort = s.faultPort := rfl
@[simp] theorem State.respond_resetPort (st : Status) (res : BitVec 64) (s : State) : (s.respond st res).resetPort = s.resetPort := rfl
@[simp] theorem State.respond_device (st : Status) (res : BitVec 64) (s : State) : (s.respond st res).device = s.device := rfl
@[simp] theorem State.respond_trace (st : Status) (res : BitVec 64) (s : State) : (s.respond st res).trace = s.trace ++ [.host (.resp st res)] := rfl
@[simp] theorem State.respond_draws (st : Status) (res : BitVec 64) (s : State) : (s.respond st res).draws = s.draws := rfl

/-! `State.accept`. -/

@[simp] theorem State.accept_base (c : BitVec 8) (f : Fields) (s : State) : (s.accept c f).base = s.base := rfl
@[simp] theorem State.accept_baseValid (c : BitVec 8) (f : Fields) (s : State) : (s.accept c f).baseValid = s.baseValid := rfl
@[simp] theorem State.accept_op (c : BitVec 8) (f : Fields) (s : State) : (s.accept c f).op = c := rfl
@[simp] theorem State.accept_kind (c : BitVec 8) (f : Fields) (s : State) : (s.accept c f).kind = f.kind := rfl
@[simp] theorem State.accept_a0 (c : BitVec 8) (f : Fields) (s : State) : (s.accept c f).a0 = f.a0 := rfl
@[simp] theorem State.accept_a1 (c : BitVec 8) (f : Fields) (s : State) : (s.accept c f).a1 = f.a1 := rfl
@[simp] theorem State.accept_d (c : BitVec 8) (f : Fields) (s : State) : (s.accept c f).d = f.d := rfl
@[simp] theorem State.accept_ptgt (c : BitVec 8) (f : Fields) (s : State) : (s.accept c f).ptgt = s.ptgt := rfl
@[simp] theorem State.accept_expect (c : BitVec 8) (f : Fields) (s : State) : (s.accept c f).expect = s.expect := rfl
@[simp] theorem State.accept_pollCnt (c : BitVec 8) (f : Fields) (s : State) : (s.accept c f).pollCnt = s.pollCnt := rfl
@[simp] theorem State.accept_rdata (c : BitVec 8) (f : Fields) (s : State) : (s.accept c f).rdata = s.rdata := rfl
@[simp] theorem State.accept_paddr (c : BitVec 8) (f : Fields) (s : State) : (s.accept c f).paddr = s.paddr := rfl
@[simp] theorem State.accept_rem (c : BitVec 8) (f : Fields) (s : State) : (s.accept c f).rem = s.rem := rfl
@[simp] theorem State.accept_bw (c : BitVec 8) (f : Fields) (s : State) : (s.accept c f).bw = s.bw := rfl
@[simp] theorem State.accept_wi (c : BitVec 8) (f : Fields) (s : State) : (s.accept c f).wi = s.wi := rfl
@[simp] theorem State.accept_sidx (c : BitVec 8) (f : Fields) (s : State) : (s.accept c f).sidx = s.sidx := rfl
@[simp] theorem State.accept_wdata (c : BitVec 8) (f : Fields) (s : State) : (s.accept c f).wdata = s.wdata := rfl
@[simp] theorem State.accept_idacc (c : BitVec 8) (f : Fields) (s : State) : (s.accept c f).idacc = s.idacc := rfl
@[simp] theorem State.accept_qlow (c : BitVec 8) (f : Fields) (s : State) : (s.accept c f).qlow = s.qlow := rfl
@[simp] theorem State.accept_ridx (c : BitVec 8) (f : Fields) (s : State) : (s.accept c f).ridx = s.ridx := rfl
@[simp] theorem State.accept_rcell (c : BitVec 8) (f : Fields) (s : State) : (s.accept c f).rcell = s.rcell := rfl
@[simp] theorem State.accept_pres (c : BitVec 8) (f : Fields) (s : State) : (s.accept c f).pres = s.pres := rfl
@[simp] theorem State.accept_seq (c : BitVec 8) (f : Fields) (s : State) : (s.accept c f).seq = s.seq := rfl
@[simp] theorem State.accept_status (c : BitVec 8) (f : Fields) (s : State) : (s.accept c f).status = s.status := rfl
@[simp] theorem State.accept_result (c : BitVec 8) (f : Fields) (s : State) : (s.accept c f).result = s.result := rfl
@[simp] theorem State.accept_faulted (c : BitVec 8) (f : Fields) (s : State) : (s.accept c f).faulted = s.faulted := rfl
@[simp] theorem State.accept_params (c : BitVec 8) (f : Fields) (s : State) : (s.accept c f).params = s.params := rfl
@[simp] theorem State.accept_requests (c : BitVec 8) (f : Fields) (s : State) : (s.accept c f).requests = s.requests := rfl
@[simp] theorem State.accept_srcBuf (c : BitVec 8) (f : Fields) (s : State) : (s.accept c f).srcBuf = s.srcBuf := rfl
@[simp] theorem State.accept_faultPort (c : BitVec 8) (f : Fields) (s : State) : (s.accept c f).faultPort = s.faultPort := rfl
@[simp] theorem State.accept_resetPort (c : BitVec 8) (f : Fields) (s : State) : (s.accept c f).resetPort = s.resetPort := rfl
@[simp] theorem State.accept_device (c : BitVec 8) (f : Fields) (s : State) : (s.accept c f).device = s.device := rfl
@[simp] theorem State.accept_trace (c : BitVec 8) (f : Fields) (s : State) : (s.accept c f).trace = s.trace ++ [.host (.req c f.kind f.a0 f.a1 f.d)] := rfl
@[simp] theorem State.accept_draws (c : BitVec 8) (f : Fields) (s : State) : (s.accept c f).draws = s.draws := rfl

/-! `State.popReset`. -/

@[simp] theorem State.popReset_base (s : State) : (s.popReset).base = s.base := rfl
@[simp] theorem State.popReset_baseValid (s : State) : (s.popReset).baseValid = s.baseValid := rfl
@[simp] theorem State.popReset_op (s : State) : (s.popReset).op = s.op := rfl
@[simp] theorem State.popReset_kind (s : State) : (s.popReset).kind = s.kind := rfl
@[simp] theorem State.popReset_a0 (s : State) : (s.popReset).a0 = s.a0 := rfl
@[simp] theorem State.popReset_a1 (s : State) : (s.popReset).a1 = s.a1 := rfl
@[simp] theorem State.popReset_d (s : State) : (s.popReset).d = s.d := rfl
@[simp] theorem State.popReset_ptgt (s : State) : (s.popReset).ptgt = s.ptgt := rfl
@[simp] theorem State.popReset_expect (s : State) : (s.popReset).expect = s.expect := rfl
@[simp] theorem State.popReset_pollCnt (s : State) : (s.popReset).pollCnt = s.pollCnt := rfl
@[simp] theorem State.popReset_rdata (s : State) : (s.popReset).rdata = s.rdata := rfl
@[simp] theorem State.popReset_paddr (s : State) : (s.popReset).paddr = s.paddr := rfl
@[simp] theorem State.popReset_rem (s : State) : (s.popReset).rem = s.rem := rfl
@[simp] theorem State.popReset_bw (s : State) : (s.popReset).bw = s.bw := rfl
@[simp] theorem State.popReset_wi (s : State) : (s.popReset).wi = s.wi := rfl
@[simp] theorem State.popReset_sidx (s : State) : (s.popReset).sidx = s.sidx := rfl
@[simp] theorem State.popReset_wdata (s : State) : (s.popReset).wdata = s.wdata := rfl
@[simp] theorem State.popReset_idacc (s : State) : (s.popReset).idacc = s.idacc := rfl
@[simp] theorem State.popReset_qlow (s : State) : (s.popReset).qlow = s.qlow := rfl
@[simp] theorem State.popReset_ridx (s : State) : (s.popReset).ridx = s.ridx := rfl
@[simp] theorem State.popReset_rcell (s : State) : (s.popReset).rcell = s.rcell := rfl
@[simp] theorem State.popReset_pres (s : State) : (s.popReset).pres = s.pres := rfl
@[simp] theorem State.popReset_seq (s : State) : (s.popReset).seq = s.seq := rfl
@[simp] theorem State.popReset_status (s : State) : (s.popReset).status = s.status := rfl
@[simp] theorem State.popReset_result (s : State) : (s.popReset).result = s.result := rfl
@[simp] theorem State.popReset_faulted (s : State) : (s.popReset).faulted = s.faulted := rfl
@[simp] theorem State.popReset_params (s : State) : (s.popReset).params = s.params := rfl
@[simp] theorem State.popReset_requests (s : State) : (s.popReset).requests = s.requests := rfl
@[simp] theorem State.popReset_srcBuf (s : State) : (s.popReset).srcBuf = s.srcBuf := rfl
@[simp] theorem State.popReset_faultPort (s : State) : (s.popReset).faultPort = s.faultPort := rfl
@[simp] theorem State.popReset_resetPort (s : State) : (s.popReset).resetPort = s.resetPort.tail := rfl
@[simp] theorem State.popReset_device (s : State) : (s.popReset).device = s.device := rfl
@[simp] theorem State.popReset_trace (s : State) : (s.popReset).trace = s.trace := rfl
@[simp] theorem State.popReset_draws (s : State) : (s.popReset).draws = s.draws := rfl

/-! `State.takeRequest`. -/

@[simp] theorem State.takeRequest_base (r : Request) (rest : List Request) (s : State) : (s.takeRequest r rest).base = s.base := rfl
@[simp] theorem State.takeRequest_baseValid (r : Request) (rest : List Request) (s : State) : (s.takeRequest r rest).baseValid = s.baseValid := rfl
@[simp] theorem State.takeRequest_op (r : Request) (rest : List Request) (s : State) : (s.takeRequest r rest).op = s.op := rfl
@[simp] theorem State.takeRequest_kind (r : Request) (rest : List Request) (s : State) : (s.takeRequest r rest).kind = s.kind := rfl
@[simp] theorem State.takeRequest_a0 (r : Request) (rest : List Request) (s : State) : (s.takeRequest r rest).a0 = s.a0 := rfl
@[simp] theorem State.takeRequest_a1 (r : Request) (rest : List Request) (s : State) : (s.takeRequest r rest).a1 = s.a1 := rfl
@[simp] theorem State.takeRequest_d (r : Request) (rest : List Request) (s : State) : (s.takeRequest r rest).d = s.d := rfl
@[simp] theorem State.takeRequest_ptgt (r : Request) (rest : List Request) (s : State) : (s.takeRequest r rest).ptgt = s.ptgt := rfl
@[simp] theorem State.takeRequest_expect (r : Request) (rest : List Request) (s : State) : (s.takeRequest r rest).expect = s.expect := rfl
@[simp] theorem State.takeRequest_pollCnt (r : Request) (rest : List Request) (s : State) : (s.takeRequest r rest).pollCnt = s.pollCnt := rfl
@[simp] theorem State.takeRequest_rdata (r : Request) (rest : List Request) (s : State) : (s.takeRequest r rest).rdata = s.rdata := rfl
@[simp] theorem State.takeRequest_paddr (r : Request) (rest : List Request) (s : State) : (s.takeRequest r rest).paddr = s.paddr := rfl
@[simp] theorem State.takeRequest_rem (r : Request) (rest : List Request) (s : State) : (s.takeRequest r rest).rem = s.rem := rfl
@[simp] theorem State.takeRequest_bw (r : Request) (rest : List Request) (s : State) : (s.takeRequest r rest).bw = s.bw := rfl
@[simp] theorem State.takeRequest_wi (r : Request) (rest : List Request) (s : State) : (s.takeRequest r rest).wi = s.wi := rfl
@[simp] theorem State.takeRequest_sidx (r : Request) (rest : List Request) (s : State) : (s.takeRequest r rest).sidx = s.sidx := rfl
@[simp] theorem State.takeRequest_wdata (r : Request) (rest : List Request) (s : State) : (s.takeRequest r rest).wdata = s.wdata := rfl
@[simp] theorem State.takeRequest_idacc (r : Request) (rest : List Request) (s : State) : (s.takeRequest r rest).idacc = s.idacc := rfl
@[simp] theorem State.takeRequest_qlow (r : Request) (rest : List Request) (s : State) : (s.takeRequest r rest).qlow = s.qlow := rfl
@[simp] theorem State.takeRequest_ridx (r : Request) (rest : List Request) (s : State) : (s.takeRequest r rest).ridx = s.ridx := rfl
@[simp] theorem State.takeRequest_rcell (r : Request) (rest : List Request) (s : State) : (s.takeRequest r rest).rcell = s.rcell := rfl
@[simp] theorem State.takeRequest_pres (r : Request) (rest : List Request) (s : State) : (s.takeRequest r rest).pres = s.pres := rfl
@[simp] theorem State.takeRequest_seq (r : Request) (rest : List Request) (s : State) : (s.takeRequest r rest).seq = s.seq := rfl
@[simp] theorem State.takeRequest_status (r : Request) (rest : List Request) (s : State) : (s.takeRequest r rest).status = s.status := rfl
@[simp] theorem State.takeRequest_result (r : Request) (rest : List Request) (s : State) : (s.takeRequest r rest).result = s.result := rfl
@[simp] theorem State.takeRequest_faulted (r : Request) (rest : List Request) (s : State) : (s.takeRequest r rest).faulted = s.faulted := rfl
@[simp] theorem State.takeRequest_params (r : Request) (rest : List Request) (s : State) : (s.takeRequest r rest).params = s.params := rfl
@[simp] theorem State.takeRequest_requests (r : Request) (rest : List Request) (s : State) : (s.takeRequest r rest).requests = rest := rfl
@[simp] theorem State.takeRequest_srcBuf (r : Request) (rest : List Request) (s : State) : (s.takeRequest r rest).srcBuf = r.src := rfl
@[simp] theorem State.takeRequest_faultPort (r : Request) (rest : List Request) (s : State) : (s.takeRequest r rest).faultPort = s.faultPort := rfl
@[simp] theorem State.takeRequest_resetPort (r : Request) (rest : List Request) (s : State) : (s.takeRequest r rest).resetPort = s.resetPort := rfl
@[simp] theorem State.takeRequest_device (r : Request) (rest : List Request) (s : State) : (s.takeRequest r rest).device = s.device := rfl
@[simp] theorem State.takeRequest_trace (r : Request) (rest : List Request) (s : State) : (s.takeRequest r rest).trace = s.trace := rfl
@[simp] theorem State.takeRequest_draws (r : Request) (rest : List Request) (s : State) : (s.takeRequest r rest).draws = s.draws := rfl

/-! `State.hardwareReset`. -/

@[simp] theorem State.hardwareReset_base (s : State) : (s.hardwareReset).base = 0 := rfl
@[simp] theorem State.hardwareReset_baseValid (s : State) : (s.hardwareReset).baseValid = false := rfl
@[simp] theorem State.hardwareReset_op (s : State) : (s.hardwareReset).op = 0 := rfl
@[simp] theorem State.hardwareReset_kind (s : State) : (s.hardwareReset).kind = 0 := rfl
@[simp] theorem State.hardwareReset_a0 (s : State) : (s.hardwareReset).a0 = 0 := rfl
@[simp] theorem State.hardwareReset_a1 (s : State) : (s.hardwareReset).a1 = 0 := rfl
@[simp] theorem State.hardwareReset_d (s : State) : (s.hardwareReset).d = 0 := rfl
@[simp] theorem State.hardwareReset_ptgt (s : State) : (s.hardwareReset).ptgt = 0 := rfl
@[simp] theorem State.hardwareReset_expect (s : State) : (s.hardwareReset).expect = 0 := rfl
@[simp] theorem State.hardwareReset_pollCnt (s : State) : (s.hardwareReset).pollCnt = 0 := rfl
@[simp] theorem State.hardwareReset_rdata (s : State) : (s.hardwareReset).rdata = 0 := rfl
@[simp] theorem State.hardwareReset_paddr (s : State) : (s.hardwareReset).paddr = 0 := rfl
@[simp] theorem State.hardwareReset_rem (s : State) : (s.hardwareReset).rem = 0 := rfl
@[simp] theorem State.hardwareReset_bw (s : State) : (s.hardwareReset).bw = 0 := rfl
@[simp] theorem State.hardwareReset_wi (s : State) : (s.hardwareReset).wi = 0 := rfl
@[simp] theorem State.hardwareReset_sidx (s : State) : (s.hardwareReset).sidx = 0 := rfl
@[simp] theorem State.hardwareReset_wdata (s : State) : (s.hardwareReset).wdata = 0 := rfl
@[simp] theorem State.hardwareReset_idacc (s : State) : (s.hardwareReset).idacc = 0 := rfl
@[simp] theorem State.hardwareReset_qlow (s : State) : (s.hardwareReset).qlow = 0 := rfl
@[simp] theorem State.hardwareReset_ridx (s : State) : (s.hardwareReset).ridx = 0 := rfl
@[simp] theorem State.hardwareReset_rcell (s : State) : (s.hardwareReset).rcell = 0 := rfl
@[simp] theorem State.hardwareReset_pres (s : State) : (s.hardwareReset).pres = false := rfl
@[simp] theorem State.hardwareReset_seq (s : State) : (s.hardwareReset).seq = .idle := rfl
@[simp] theorem State.hardwareReset_status (s : State) : (s.hardwareReset).status = .success := rfl
@[simp] theorem State.hardwareReset_result (s : State) : (s.hardwareReset).result = 0 := rfl
@[simp] theorem State.hardwareReset_faulted (s : State) : (s.hardwareReset).faulted = false := rfl
@[simp] theorem State.hardwareReset_params (s : State) : (s.hardwareReset).params = s.params := rfl
@[simp] theorem State.hardwareReset_requests (s : State) : (s.hardwareReset).requests = s.requests := rfl
@[simp] theorem State.hardwareReset_srcBuf (s : State) : (s.hardwareReset).srcBuf = [] := rfl
@[simp] theorem State.hardwareReset_faultPort (s : State) : (s.hardwareReset).faultPort = s.faultPort := rfl
@[simp] theorem State.hardwareReset_resetPort (s : State) : (s.hardwareReset).resetPort = s.resetPort := rfl
@[simp] theorem State.hardwareReset_device (s : State) : (s.hardwareReset).device = s.device := rfl
@[simp] theorem State.hardwareReset_trace (s : State) : (s.hardwareReset).trace = s.trace := rfl
@[simp] theorem State.hardwareReset_draws (s : State) : (s.hardwareReset).draws = s.draws := rfl

/-! `State.raiseBusFault`. -/

@[simp] theorem State.raiseBusFault_base (s : State) : (s.raiseBusFault).base = s.base := rfl
@[simp] theorem State.raiseBusFault_baseValid (s : State) : (s.raiseBusFault).baseValid = s.baseValid := rfl
@[simp] theorem State.raiseBusFault_op (s : State) : (s.raiseBusFault).op = s.op := rfl
@[simp] theorem State.raiseBusFault_kind (s : State) : (s.raiseBusFault).kind = s.kind := rfl
@[simp] theorem State.raiseBusFault_a0 (s : State) : (s.raiseBusFault).a0 = s.a0 := rfl
@[simp] theorem State.raiseBusFault_a1 (s : State) : (s.raiseBusFault).a1 = s.a1 := rfl
@[simp] theorem State.raiseBusFault_d (s : State) : (s.raiseBusFault).d = s.d := rfl
@[simp] theorem State.raiseBusFault_ptgt (s : State) : (s.raiseBusFault).ptgt = s.ptgt := rfl
@[simp] theorem State.raiseBusFault_expect (s : State) : (s.raiseBusFault).expect = s.expect := rfl
@[simp] theorem State.raiseBusFault_pollCnt (s : State) : (s.raiseBusFault).pollCnt = s.pollCnt := rfl
@[simp] theorem State.raiseBusFault_rdata (s : State) : (s.raiseBusFault).rdata = s.rdata := rfl
@[simp] theorem State.raiseBusFault_paddr (s : State) : (s.raiseBusFault).paddr = s.paddr := rfl
@[simp] theorem State.raiseBusFault_rem (s : State) : (s.raiseBusFault).rem = s.rem := rfl
@[simp] theorem State.raiseBusFault_bw (s : State) : (s.raiseBusFault).bw = s.bw := rfl
@[simp] theorem State.raiseBusFault_wi (s : State) : (s.raiseBusFault).wi = s.wi := rfl
@[simp] theorem State.raiseBusFault_sidx (s : State) : (s.raiseBusFault).sidx = s.sidx := rfl
@[simp] theorem State.raiseBusFault_wdata (s : State) : (s.raiseBusFault).wdata = s.wdata := rfl
@[simp] theorem State.raiseBusFault_idacc (s : State) : (s.raiseBusFault).idacc = s.idacc := rfl
@[simp] theorem State.raiseBusFault_qlow (s : State) : (s.raiseBusFault).qlow = s.qlow := rfl
@[simp] theorem State.raiseBusFault_ridx (s : State) : (s.raiseBusFault).ridx = s.ridx := rfl
@[simp] theorem State.raiseBusFault_rcell (s : State) : (s.raiseBusFault).rcell = s.rcell := rfl
@[simp] theorem State.raiseBusFault_pres (s : State) : (s.raiseBusFault).pres = s.pres := rfl
@[simp] theorem State.raiseBusFault_seq (s : State) : (s.raiseBusFault).seq = .faulted := rfl
@[simp] theorem State.raiseBusFault_status (s : State) : (s.raiseBusFault).status = s.status := rfl
@[simp] theorem State.raiseBusFault_result (s : State) : (s.raiseBusFault).result = s.result := rfl
@[simp] theorem State.raiseBusFault_faulted (s : State) : (s.raiseBusFault).faulted = true := rfl
@[simp] theorem State.raiseBusFault_params (s : State) : (s.raiseBusFault).params = s.params := rfl
@[simp] theorem State.raiseBusFault_requests (s : State) : (s.raiseBusFault).requests = s.requests := rfl
@[simp] theorem State.raiseBusFault_srcBuf (s : State) : (s.raiseBusFault).srcBuf = s.srcBuf := rfl
@[simp] theorem State.raiseBusFault_faultPort (s : State) : (s.raiseBusFault).faultPort = s.faultPort := rfl
@[simp] theorem State.raiseBusFault_resetPort (s : State) : (s.raiseBusFault).resetPort = s.resetPort := rfl
@[simp] theorem State.raiseBusFault_device (s : State) : (s.raiseBusFault).device = s.device := rfl
@[simp] theorem State.raiseBusFault_trace (s : State) : (s.raiseBusFault).trace = s.trace := rfl
@[simp] theorem State.raiseBusFault_draws (s : State) : (s.raiseBusFault).draws = s.draws := rfl

/-! `State.endCycle`: a bus cycle's end changes FAULTED, SEQ and the fault port only. -/

@[simp] theorem State.endCycle_base (s : State) : s.endCycle.base = s.base := by
  unfold State.endCycle; split <;> rfl
@[simp] theorem State.endCycle_baseValid (s : State) : s.endCycle.baseValid = s.baseValid := by
  unfold State.endCycle; split <;> rfl
@[simp] theorem State.endCycle_op (s : State) : s.endCycle.op = s.op := by
  unfold State.endCycle; split <;> rfl
@[simp] theorem State.endCycle_kind (s : State) : s.endCycle.kind = s.kind := by
  unfold State.endCycle; split <;> rfl
@[simp] theorem State.endCycle_a0 (s : State) : s.endCycle.a0 = s.a0 := by
  unfold State.endCycle; split <;> rfl
@[simp] theorem State.endCycle_a1 (s : State) : s.endCycle.a1 = s.a1 := by
  unfold State.endCycle; split <;> rfl
@[simp] theorem State.endCycle_d (s : State) : s.endCycle.d = s.d := by
  unfold State.endCycle; split <;> rfl
@[simp] theorem State.endCycle_ptgt (s : State) : s.endCycle.ptgt = s.ptgt := by
  unfold State.endCycle; split <;> rfl
@[simp] theorem State.endCycle_expect (s : State) : s.endCycle.expect = s.expect := by
  unfold State.endCycle; split <;> rfl
@[simp] theorem State.endCycle_pollCnt (s : State) : s.endCycle.pollCnt = s.pollCnt := by
  unfold State.endCycle; split <;> rfl
@[simp] theorem State.endCycle_rdata (s : State) : s.endCycle.rdata = s.rdata := by
  unfold State.endCycle; split <;> rfl
@[simp] theorem State.endCycle_paddr (s : State) : s.endCycle.paddr = s.paddr := by
  unfold State.endCycle; split <;> rfl
@[simp] theorem State.endCycle_rem (s : State) : s.endCycle.rem = s.rem := by
  unfold State.endCycle; split <;> rfl
@[simp] theorem State.endCycle_bw (s : State) : s.endCycle.bw = s.bw := by
  unfold State.endCycle; split <;> rfl
@[simp] theorem State.endCycle_wi (s : State) : s.endCycle.wi = s.wi := by
  unfold State.endCycle; split <;> rfl
@[simp] theorem State.endCycle_sidx (s : State) : s.endCycle.sidx = s.sidx := by
  unfold State.endCycle; split <;> rfl
@[simp] theorem State.endCycle_wdata (s : State) : s.endCycle.wdata = s.wdata := by
  unfold State.endCycle; split <;> rfl
@[simp] theorem State.endCycle_idacc (s : State) : s.endCycle.idacc = s.idacc := by
  unfold State.endCycle; split <;> rfl
@[simp] theorem State.endCycle_qlow (s : State) : s.endCycle.qlow = s.qlow := by
  unfold State.endCycle; split <;> rfl
@[simp] theorem State.endCycle_ridx (s : State) : s.endCycle.ridx = s.ridx := by
  unfold State.endCycle; split <;> rfl
@[simp] theorem State.endCycle_rcell (s : State) : s.endCycle.rcell = s.rcell := by
  unfold State.endCycle; split <;> rfl
@[simp] theorem State.endCycle_pres (s : State) : s.endCycle.pres = s.pres := by
  unfold State.endCycle; split <;> rfl
@[simp] theorem State.endCycle_seq (s : State) : s.endCycle.seq = if s.busFaulting then .faulted else s.seq := by
  unfold State.endCycle; split <;> rfl
@[simp] theorem State.endCycle_status (s : State) : s.endCycle.status = s.status := by
  unfold State.endCycle; split <;> rfl
@[simp] theorem State.endCycle_result (s : State) : s.endCycle.result = s.result := by
  unfold State.endCycle; split <;> rfl
@[simp] theorem State.endCycle_faulted (s : State) : s.endCycle.faulted = (s.busFaulting || s.faulted) := by
  unfold State.endCycle; split <;> simp_all
@[simp] theorem State.endCycle_params (s : State) : s.endCycle.params = s.params := by
  unfold State.endCycle; split <;> rfl
@[simp] theorem State.endCycle_requests (s : State) : s.endCycle.requests = s.requests := by
  unfold State.endCycle; split <;> rfl
@[simp] theorem State.endCycle_srcBuf (s : State) : s.endCycle.srcBuf = s.srcBuf := by
  unfold State.endCycle; split <;> rfl
@[simp] theorem State.endCycle_faultPort (s : State) : s.endCycle.faultPort = s.faultPort.tail := by
  unfold State.endCycle; split <;> rfl
@[simp] theorem State.endCycle_resetPort (s : State) : s.endCycle.resetPort = s.resetPort := by
  unfold State.endCycle; split <;> rfl
@[simp] theorem State.endCycle_device (s : State) : s.endCycle.device = s.device := by
  unfold State.endCycle; split <;> rfl
@[simp] theorem State.endCycle_trace (s : State) : s.endCycle.trace = s.trace := by
  unfold State.endCycle; split <;> rfl
@[simp] theorem State.endCycle_draws (s : State) : s.endCycle.draws = s.draws := by
  unfold State.endCycle; split <;> rfl

/-! `State.busWrite`. -/

@[simp] theorem State.busWrite_base (a : Nat) (v : Cell) (s : State) : (s.busWrite a v).base = s.base := by
  simp [State.busWrite]
@[simp] theorem State.busWrite_baseValid (a : Nat) (v : Cell) (s : State) : (s.busWrite a v).baseValid = s.baseValid := by
  simp [State.busWrite]
@[simp] theorem State.busWrite_op (a : Nat) (v : Cell) (s : State) : (s.busWrite a v).op = s.op := by
  simp [State.busWrite]
@[simp] theorem State.busWrite_kind (a : Nat) (v : Cell) (s : State) : (s.busWrite a v).kind = s.kind := by
  simp [State.busWrite]
@[simp] theorem State.busWrite_a0 (a : Nat) (v : Cell) (s : State) : (s.busWrite a v).a0 = s.a0 := by
  simp [State.busWrite]
@[simp] theorem State.busWrite_a1 (a : Nat) (v : Cell) (s : State) : (s.busWrite a v).a1 = s.a1 := by
  simp [State.busWrite]
@[simp] theorem State.busWrite_d (a : Nat) (v : Cell) (s : State) : (s.busWrite a v).d = s.d := by
  simp [State.busWrite]
@[simp] theorem State.busWrite_ptgt (a : Nat) (v : Cell) (s : State) : (s.busWrite a v).ptgt = s.ptgt := by
  simp [State.busWrite]
@[simp] theorem State.busWrite_expect (a : Nat) (v : Cell) (s : State) : (s.busWrite a v).expect = s.expect := by
  simp [State.busWrite]
@[simp] theorem State.busWrite_pollCnt (a : Nat) (v : Cell) (s : State) : (s.busWrite a v).pollCnt = s.pollCnt := by
  simp [State.busWrite]
@[simp] theorem State.busWrite_rdata (a : Nat) (v : Cell) (s : State) : (s.busWrite a v).rdata = s.rdata := by
  simp [State.busWrite]
@[simp] theorem State.busWrite_paddr (a : Nat) (v : Cell) (s : State) : (s.busWrite a v).paddr = s.paddr := by
  simp [State.busWrite]
@[simp] theorem State.busWrite_rem (a : Nat) (v : Cell) (s : State) : (s.busWrite a v).rem = s.rem := by
  simp [State.busWrite]
@[simp] theorem State.busWrite_bw (a : Nat) (v : Cell) (s : State) : (s.busWrite a v).bw = s.bw := by
  simp [State.busWrite]
@[simp] theorem State.busWrite_wi (a : Nat) (v : Cell) (s : State) : (s.busWrite a v).wi = s.wi := by
  simp [State.busWrite]
@[simp] theorem State.busWrite_sidx (a : Nat) (v : Cell) (s : State) : (s.busWrite a v).sidx = s.sidx := by
  simp [State.busWrite]
@[simp] theorem State.busWrite_wdata (a : Nat) (v : Cell) (s : State) : (s.busWrite a v).wdata = s.wdata := by
  simp [State.busWrite]
@[simp] theorem State.busWrite_idacc (a : Nat) (v : Cell) (s : State) : (s.busWrite a v).idacc = s.idacc := by
  simp [State.busWrite]
@[simp] theorem State.busWrite_qlow (a : Nat) (v : Cell) (s : State) : (s.busWrite a v).qlow = s.qlow := by
  simp [State.busWrite]
@[simp] theorem State.busWrite_ridx (a : Nat) (v : Cell) (s : State) : (s.busWrite a v).ridx = s.ridx := by
  simp [State.busWrite]
@[simp] theorem State.busWrite_rcell (a : Nat) (v : Cell) (s : State) : (s.busWrite a v).rcell = s.rcell := by
  simp [State.busWrite]
@[simp] theorem State.busWrite_pres (a : Nat) (v : Cell) (s : State) : (s.busWrite a v).pres = s.pres := by
  simp [State.busWrite]
@[simp] theorem State.busWrite_seq (a : Nat) (v : Cell) (s : State) : (s.busWrite a v).seq = if s.busFaulting then .faulted else s.seq := by
  simp [State.busWrite, State.busFaulting]
@[simp] theorem State.busWrite_status (a : Nat) (v : Cell) (s : State) : (s.busWrite a v).status = s.status := by
  simp [State.busWrite]
@[simp] theorem State.busWrite_result (a : Nat) (v : Cell) (s : State) : (s.busWrite a v).result = s.result := by
  simp [State.busWrite]
@[simp] theorem State.busWrite_faulted (a : Nat) (v : Cell) (s : State) : (s.busWrite a v).faulted = (s.busFaulting || s.faulted) := by
  simp [State.busWrite, State.busFaulting]
@[simp] theorem State.busWrite_params (a : Nat) (v : Cell) (s : State) : (s.busWrite a v).params = s.params := by
  simp [State.busWrite]
@[simp] theorem State.busWrite_requests (a : Nat) (v : Cell) (s : State) : (s.busWrite a v).requests = s.requests := by
  simp [State.busWrite]
@[simp] theorem State.busWrite_srcBuf (a : Nat) (v : Cell) (s : State) : (s.busWrite a v).srcBuf = s.srcBuf := by
  simp [State.busWrite]
@[simp] theorem State.busWrite_faultPort (a : Nat) (v : Cell) (s : State) : (s.busWrite a v).faultPort = s.faultPort.tail := by
  simp [State.busWrite]
@[simp] theorem State.busWrite_resetPort (a : Nat) (v : Cell) (s : State) : (s.busWrite a v).resetPort = s.resetPort := by
  simp [State.busWrite]
@[simp] theorem State.busWrite_device (a : Nat) (v : Cell) (s : State) : (s.busWrite a v).device = s.device.write s.params.aw a v := by
  simp [State.busWrite]
@[simp] theorem State.busWrite_trace (a : Nat) (v : Cell) (s : State) : (s.busWrite a v).trace = s.trace ++ [.bus (.w a v)] := by
  simp [State.busWrite]
@[simp] theorem State.busWrite_draws (a : Nat) (v : Cell) (s : State) : (s.busWrite a v).draws = s.draws := by
  simp [State.busWrite]

/-! `State.busRead`. -/

@[simp] theorem State.busRead_base (a : Nat) (s : State) : (s.busRead a).base = s.base := by
  simp [State.busRead]
@[simp] theorem State.busRead_baseValid (a : Nat) (s : State) : (s.busRead a).baseValid = s.baseValid := by
  simp [State.busRead]
@[simp] theorem State.busRead_op (a : Nat) (s : State) : (s.busRead a).op = s.op := by
  simp [State.busRead]
@[simp] theorem State.busRead_kind (a : Nat) (s : State) : (s.busRead a).kind = s.kind := by
  simp [State.busRead]
@[simp] theorem State.busRead_a0 (a : Nat) (s : State) : (s.busRead a).a0 = s.a0 := by
  simp [State.busRead]
@[simp] theorem State.busRead_a1 (a : Nat) (s : State) : (s.busRead a).a1 = s.a1 := by
  simp [State.busRead]
@[simp] theorem State.busRead_d (a : Nat) (s : State) : (s.busRead a).d = s.d := by
  simp [State.busRead]
@[simp] theorem State.busRead_ptgt (a : Nat) (s : State) : (s.busRead a).ptgt = s.ptgt := by
  simp [State.busRead]
@[simp] theorem State.busRead_expect (a : Nat) (s : State) : (s.busRead a).expect = s.expect := by
  simp [State.busRead]
@[simp] theorem State.busRead_pollCnt (a : Nat) (s : State) : (s.busRead a).pollCnt = s.pollCnt := by
  simp [State.busRead]
@[simp] theorem State.busRead_rdata (a : Nat) (s : State) : (s.busRead a).rdata = s.readValue a := by
  simp [State.busRead]
@[simp] theorem State.busRead_paddr (a : Nat) (s : State) : (s.busRead a).paddr = s.paddr := by
  simp [State.busRead]
@[simp] theorem State.busRead_rem (a : Nat) (s : State) : (s.busRead a).rem = s.rem := by
  simp [State.busRead]
@[simp] theorem State.busRead_bw (a : Nat) (s : State) : (s.busRead a).bw = s.bw := by
  simp [State.busRead]
@[simp] theorem State.busRead_wi (a : Nat) (s : State) : (s.busRead a).wi = s.wi := by
  simp [State.busRead]
@[simp] theorem State.busRead_sidx (a : Nat) (s : State) : (s.busRead a).sidx = s.sidx := by
  simp [State.busRead]
@[simp] theorem State.busRead_wdata (a : Nat) (s : State) : (s.busRead a).wdata = s.wdata := by
  simp [State.busRead]
@[simp] theorem State.busRead_idacc (a : Nat) (s : State) : (s.busRead a).idacc = s.idacc := by
  simp [State.busRead]
@[simp] theorem State.busRead_qlow (a : Nat) (s : State) : (s.busRead a).qlow = s.qlow := by
  simp [State.busRead]
@[simp] theorem State.busRead_ridx (a : Nat) (s : State) : (s.busRead a).ridx = s.ridx := by
  simp [State.busRead]
@[simp] theorem State.busRead_rcell (a : Nat) (s : State) : (s.busRead a).rcell = s.rcell := by
  simp [State.busRead]
@[simp] theorem State.busRead_pres (a : Nat) (s : State) : (s.busRead a).pres = s.pres := by
  simp [State.busRead]
@[simp] theorem State.busRead_seq (a : Nat) (s : State) : (s.busRead a).seq = if s.busFaulting then .faulted else s.seq := by
  simp [State.busRead, State.busFaulting]
@[simp] theorem State.busRead_status (a : Nat) (s : State) : (s.busRead a).status = s.status := by
  simp [State.busRead]
@[simp] theorem State.busRead_result (a : Nat) (s : State) : (s.busRead a).result = s.result := by
  simp [State.busRead]
@[simp] theorem State.busRead_faulted (a : Nat) (s : State) : (s.busRead a).faulted = (s.busFaulting || s.faulted) := by
  simp [State.busRead, State.busFaulting]
@[simp] theorem State.busRead_params (a : Nat) (s : State) : (s.busRead a).params = s.params := by
  simp [State.busRead]
@[simp] theorem State.busRead_requests (a : Nat) (s : State) : (s.busRead a).requests = s.requests := by
  simp [State.busRead]
@[simp] theorem State.busRead_srcBuf (a : Nat) (s : State) : (s.busRead a).srcBuf = s.srcBuf := by
  simp [State.busRead]
@[simp] theorem State.busRead_faultPort (a : Nat) (s : State) : (s.busRead a).faultPort = s.faultPort.tail := by
  simp [State.busRead]
@[simp] theorem State.busRead_resetPort (a : Nat) (s : State) : (s.busRead a).resetPort = s.resetPort := by
  simp [State.busRead]
@[simp] theorem State.busRead_device (a : Nat) (s : State) : (s.busRead a).device = s.device.afterRead := by
  simp [State.busRead]
@[simp] theorem State.busRead_trace (a : Nat) (s : State) : (s.busRead a).trace = s.trace ++ [.bus (.r a (s.readValue a))] := by
  simp [State.busRead]
@[simp] theorem State.busRead_draws (a : Nat) (s : State) : (s.busRead a).draws = if s.busFaulting then s.draws + 1 else s.draws := by
  simp [State.busRead]

/-! `State.fetchSrc`. -/

@[simp] theorem State.fetchSrc_base (i : Nat) (s : State) : (s.fetchSrc i).base = s.base := rfl
@[simp] theorem State.fetchSrc_baseValid (i : Nat) (s : State) : (s.fetchSrc i).baseValid = s.baseValid := rfl
@[simp] theorem State.fetchSrc_op (i : Nat) (s : State) : (s.fetchSrc i).op = s.op := rfl
@[simp] theorem State.fetchSrc_kind (i : Nat) (s : State) : (s.fetchSrc i).kind = s.kind := rfl
@[simp] theorem State.fetchSrc_a0 (i : Nat) (s : State) : (s.fetchSrc i).a0 = s.a0 := rfl
@[simp] theorem State.fetchSrc_a1 (i : Nat) (s : State) : (s.fetchSrc i).a1 = s.a1 := rfl
@[simp] theorem State.fetchSrc_d (i : Nat) (s : State) : (s.fetchSrc i).d = s.d := rfl
@[simp] theorem State.fetchSrc_ptgt (i : Nat) (s : State) : (s.fetchSrc i).ptgt = s.ptgt := rfl
@[simp] theorem State.fetchSrc_expect (i : Nat) (s : State) : (s.fetchSrc i).expect = s.expect := rfl
@[simp] theorem State.fetchSrc_pollCnt (i : Nat) (s : State) : (s.fetchSrc i).pollCnt = s.pollCnt := rfl
@[simp] theorem State.fetchSrc_rdata (i : Nat) (s : State) : (s.fetchSrc i).rdata = s.rdata := rfl
@[simp] theorem State.fetchSrc_paddr (i : Nat) (s : State) : (s.fetchSrc i).paddr = s.paddr := rfl
@[simp] theorem State.fetchSrc_rem (i : Nat) (s : State) : (s.fetchSrc i).rem = s.rem := rfl
@[simp] theorem State.fetchSrc_bw (i : Nat) (s : State) : (s.fetchSrc i).bw = s.bw := rfl
@[simp] theorem State.fetchSrc_wi (i : Nat) (s : State) : (s.fetchSrc i).wi = s.wi := rfl
@[simp] theorem State.fetchSrc_sidx (i : Nat) (s : State) : (s.fetchSrc i).sidx = s.sidx := rfl
@[simp] theorem State.fetchSrc_wdata (i : Nat) (s : State) : (s.fetchSrc i).wdata = s.wdata := rfl
@[simp] theorem State.fetchSrc_idacc (i : Nat) (s : State) : (s.fetchSrc i).idacc = s.idacc := rfl
@[simp] theorem State.fetchSrc_qlow (i : Nat) (s : State) : (s.fetchSrc i).qlow = s.qlow := rfl
@[simp] theorem State.fetchSrc_ridx (i : Nat) (s : State) : (s.fetchSrc i).ridx = s.ridx := rfl
@[simp] theorem State.fetchSrc_rcell (i : Nat) (s : State) : (s.fetchSrc i).rcell = s.rcell := rfl
@[simp] theorem State.fetchSrc_pres (i : Nat) (s : State) : (s.fetchSrc i).pres = s.pres := rfl
@[simp] theorem State.fetchSrc_seq (i : Nat) (s : State) : (s.fetchSrc i).seq = s.seq := rfl
@[simp] theorem State.fetchSrc_status (i : Nat) (s : State) : (s.fetchSrc i).status = s.status := rfl
@[simp] theorem State.fetchSrc_result (i : Nat) (s : State) : (s.fetchSrc i).result = s.result := rfl
@[simp] theorem State.fetchSrc_faulted (i : Nat) (s : State) : (s.fetchSrc i).faulted = s.faulted := rfl
@[simp] theorem State.fetchSrc_params (i : Nat) (s : State) : (s.fetchSrc i).params = s.params := rfl
@[simp] theorem State.fetchSrc_requests (i : Nat) (s : State) : (s.fetchSrc i).requests = s.requests := rfl
@[simp] theorem State.fetchSrc_srcBuf (i : Nat) (s : State) : (s.fetchSrc i).srcBuf = s.srcBuf := rfl
@[simp] theorem State.fetchSrc_faultPort (i : Nat) (s : State) : (s.fetchSrc i).faultPort = s.faultPort := rfl
@[simp] theorem State.fetchSrc_resetPort (i : Nat) (s : State) : (s.fetchSrc i).resetPort = s.resetPort := rfl
@[simp] theorem State.fetchSrc_device (i : Nat) (s : State) : (s.fetchSrc i).device = s.device := rfl
@[simp] theorem State.fetchSrc_trace (i : Nat) (s : State) : (s.fetchSrc i).trace = s.trace ++ [.host (.src i (s.srcByte i))] := rfl
@[simp] theorem State.fetchSrc_draws (i : Nat) (s : State) : (s.fetchSrc i).draws = if i < s.srcBuf.length then s.draws else s.draws + 1 := rfl

/-! `State.deliver`. -/

@[simp] theorem State.deliver_base (i : Nat) (b : Byte) (s : State) : (s.deliver i b).base = s.base := rfl
@[simp] theorem State.deliver_baseValid (i : Nat) (b : Byte) (s : State) : (s.deliver i b).baseValid = s.baseValid := rfl
@[simp] theorem State.deliver_op (i : Nat) (b : Byte) (s : State) : (s.deliver i b).op = s.op := rfl
@[simp] theorem State.deliver_kind (i : Nat) (b : Byte) (s : State) : (s.deliver i b).kind = s.kind := rfl
@[simp] theorem State.deliver_a0 (i : Nat) (b : Byte) (s : State) : (s.deliver i b).a0 = s.a0 := rfl
@[simp] theorem State.deliver_a1 (i : Nat) (b : Byte) (s : State) : (s.deliver i b).a1 = s.a1 := rfl
@[simp] theorem State.deliver_d (i : Nat) (b : Byte) (s : State) : (s.deliver i b).d = s.d := rfl
@[simp] theorem State.deliver_ptgt (i : Nat) (b : Byte) (s : State) : (s.deliver i b).ptgt = s.ptgt := rfl
@[simp] theorem State.deliver_expect (i : Nat) (b : Byte) (s : State) : (s.deliver i b).expect = s.expect := rfl
@[simp] theorem State.deliver_pollCnt (i : Nat) (b : Byte) (s : State) : (s.deliver i b).pollCnt = s.pollCnt := rfl
@[simp] theorem State.deliver_rdata (i : Nat) (b : Byte) (s : State) : (s.deliver i b).rdata = s.rdata := rfl
@[simp] theorem State.deliver_paddr (i : Nat) (b : Byte) (s : State) : (s.deliver i b).paddr = s.paddr := rfl
@[simp] theorem State.deliver_rem (i : Nat) (b : Byte) (s : State) : (s.deliver i b).rem = s.rem := rfl
@[simp] theorem State.deliver_bw (i : Nat) (b : Byte) (s : State) : (s.deliver i b).bw = s.bw := rfl
@[simp] theorem State.deliver_wi (i : Nat) (b : Byte) (s : State) : (s.deliver i b).wi = s.wi := rfl
@[simp] theorem State.deliver_sidx (i : Nat) (b : Byte) (s : State) : (s.deliver i b).sidx = s.sidx := rfl
@[simp] theorem State.deliver_wdata (i : Nat) (b : Byte) (s : State) : (s.deliver i b).wdata = s.wdata := rfl
@[simp] theorem State.deliver_idacc (i : Nat) (b : Byte) (s : State) : (s.deliver i b).idacc = s.idacc := rfl
@[simp] theorem State.deliver_qlow (i : Nat) (b : Byte) (s : State) : (s.deliver i b).qlow = s.qlow := rfl
@[simp] theorem State.deliver_ridx (i : Nat) (b : Byte) (s : State) : (s.deliver i b).ridx = s.ridx := rfl
@[simp] theorem State.deliver_rcell (i : Nat) (b : Byte) (s : State) : (s.deliver i b).rcell = s.rcell := rfl
@[simp] theorem State.deliver_pres (i : Nat) (b : Byte) (s : State) : (s.deliver i b).pres = s.pres := rfl
@[simp] theorem State.deliver_seq (i : Nat) (b : Byte) (s : State) : (s.deliver i b).seq = s.seq := rfl
@[simp] theorem State.deliver_status (i : Nat) (b : Byte) (s : State) : (s.deliver i b).status = s.status := rfl
@[simp] theorem State.deliver_result (i : Nat) (b : Byte) (s : State) : (s.deliver i b).result = s.result := rfl
@[simp] theorem State.deliver_faulted (i : Nat) (b : Byte) (s : State) : (s.deliver i b).faulted = s.faulted := rfl
@[simp] theorem State.deliver_params (i : Nat) (b : Byte) (s : State) : (s.deliver i b).params = s.params := rfl
@[simp] theorem State.deliver_requests (i : Nat) (b : Byte) (s : State) : (s.deliver i b).requests = s.requests := rfl
@[simp] theorem State.deliver_srcBuf (i : Nat) (b : Byte) (s : State) : (s.deliver i b).srcBuf = s.srcBuf := rfl
@[simp] theorem State.deliver_faultPort (i : Nat) (b : Byte) (s : State) : (s.deliver i b).faultPort = s.faultPort := rfl
@[simp] theorem State.deliver_resetPort (i : Nat) (b : Byte) (s : State) : (s.deliver i b).resetPort = s.resetPort := rfl
@[simp] theorem State.deliver_device (i : Nat) (b : Byte) (s : State) : (s.deliver i b).device = s.device := rfl
@[simp] theorem State.deliver_trace (i : Nat) (b : Byte) (s : State) : (s.deliver i b).trace = s.trace ++ [.host (.dst i b)] := rfl
@[simp] theorem State.deliver_draws (i : Nat) (b : Byte) (s : State) : (s.deliver i b).draws = s.draws := rfl

end Sys2Proof.Machine
end

