-- ==== Sys2Proof/Laws/Step.lean ====
section
/-! SUPPORT. What a step can do, said once: the acceptance of a request, the event of a busy block, and the case split
of `step` that invariants cite. -/

namespace Sys2Proof.Machine

/-! ## Requests -/

/-- Everything the presentation of a request can do. -/
theorem request_cases {op : BitVec 8} {f : Fields} {admits : State → Bool} {start : State → State} {s : State} :
    (s.stopped = true ∧ request op f admits start s = .fault .busFault) ∨
    (s.stopped = false ∧ s.accepting = true ∧ admits (s.accept op f) = true ∧
      request op f admits start s = .next (start (s.accept op f))) ∨
    (s.stopped = false ∧ s.accepting = true ∧ admits (s.accept op f) = false ∧
      request op f admits start s = .next (s.accept op f).rejectRequest) ∨
    (s.stopped = false ∧ s.accepting = false ∧ request op f admits start s = .next s) := by
  unfold request
  cases h1 : s.stopped
  · cases h2 : s.accepting
    · simp
    · cases h3 : admits (s.accept op f) <;> simp [h3]
  · simp

/-- A ready block that admits the request starts it. -/
theorem request_admitted {op : BitVec 8} {f : Fields} {admits : State → Bool} {start : State → State} {s : State}
    (hr : s.Ready) (ha : admits (s.accept op f) = true) :
    request op f admits start s = .next (start (s.accept op f)) := by
  obtain ⟨hq, hf⟩ := hr
  simp [request, State.stopped, State.accepting, hq, hf, ha]

/-- A ready block that does not admit the request answers `ILLEGAL_REQUEST`. -/
theorem request_rejected {op : BitVec 8} {f : Fields} {admits : State → Bool} {start : State → State} {s : State}
    (hr : s.Ready) (ha : admits (s.accept op f) = false) :
    request op f admits start s = .next ((s.accept op f).reply .illegalRequest 0) := by
  obtain ⟨hq, hf⟩ := hr
  simp [request, State.stopped, State.accepting, hq, hf, ha, State.rejectRequest]

/-! ## The event of a busy block -/

/-- The address of a command cycle (30_encoding.md R111). -/
def State.cycleAddr (s : State) : CycleKind → Nat
  | .unlock1 => s.plus s.unlockOrigin Config.unlock1Offset
  | .unlock2 => s.plus s.unlockOrigin Config.unlock2Offset
  | .reset => s.base
  | .idEntry => s.at Config.cmdOffset
  | .cfiEntry => s.at Config.cfiEntryOffset
  | .wordPgm => s.at Config.cmdOffset
  | .eraseSetup => s.at Config.cmdOffset
  | .eraseConfirm => s.at s.a0
  | .wbLoad => s.paddr
  | .wbCount => s.paddr
  | .wbConfirm => s.paddr
  | .data => s.dataAddr

/-- The value of a command cycle (30_encoding.md R111). -/
def State.cycleValue (s : State) : CycleKind → Cell
  | .unlock1 => Config.unlock1Value
  | .unlock2 => Config.unlock2Value
  | .reset => Config.resetValue
  | .idEntry => Config.idEntryValue
  | .cfiEntry => Config.cfiEntryValue
  | .wordPgm => Config.wordPgmValue
  | .eraseSetup => Config.eraseSetupValue
  | .eraseConfirm => Config.eraseConfirmValue
  | .wbLoad => Config.wbLoadValue
  | .wbCount => (countField s.bw).zeroExtend 16
  | .wbConfirm => Config.wbConfirmValue
  | .data => s.dataWord

/-- A data cycle first holds its word in WDATA. -/
def State.beforeCycle (s : State) : CycleKind → State
  | .data => { s with wdata := s.dataWord }
  | _ => s

/-- The bus write of a command cycle. -/
def State.writeCycle (k : CycleKind) (s : State) : State :=
  (s.beforeCycle k).busWrite (s.cycleAddr k) (s.cycleValue k)

/-- The instruction at a position of a command cycle does that cycle's bus write, and SEQ advances. -/
theorem exec_cycleInstr {s : State} {i : Instr} (hs : s.stopped = false) (hi : s.cycleInstr = some i) :
    ∃ k, s.seq.cycle = some k ∧ exec i s = afterCycle (s.writeCycle k) := by
  unfold State.cycleInstr at hi
  cases hk : s.seq.cycle with
  | none => simp [hk] at hi
  | some k =>
    refine ⟨k, rfl, ?_⟩
    cases k <;> simp only [hk, Option.some.injEq] at hi <;> subst hi <;>
      simp [exec, execCycUnlock1, execCycUnlock2, execCycReset, execCycIdEntry, execCycCfiEntry, execCycWordPgm,
        execCycEraseSetup, execCycEraseConfirm, execCycWbLoad, execCycWbCount, execCycWbConfirm, execCycData,
        emitCycle, hs, hk, State.writeCycle, State.beforeCycle, State.cycleAddr, State.cycleValue, State.at]
    · have h : State.stopped { s with wdata := s.dataWord } = false := hs
      rw [h]
      rfl

/-- The write a position of a command cycle makes next is that cycle's. -/
theorem comingWrite_cycle {s : State} {k : CycleKind} (hk : s.seq.cycle = some k) :
    s.comingWrite = some (s.cycleAddr k, s.cycleValue k) := by
  unfold State.comingWrite
  rw [hk]
  cases k <;> rfl

/-- The state after the event of a busy block, before SEQ advances. -/
def State.event (s : State) : State :=
  match s.seq.cycle with
  | some k => s.writeCycle k
  | none =>
    match s.comingRead with
    | some a => s.busRead a
    | none =>
      match s.seq with
      | .wrCyc => s.busWrite s.a0 s.d
      | .wbSrc0 => State.fetchSrc s.sidx { s with wdata := joinBytes (highByte s.wdata) (s.srcByte s.sidx) }
      | .wbSrc1 => State.fetchSrc (s.srcIndex s.sidx 1)
          { s with
            wdata := joinBytes (s.srcByte (s.srcIndex s.sidx 1)) (lowByte s.wdata)
            sidx := s.srcIndex s.sidx 2 }
      | .rbOut => State.deliver s.ridx (byteAt s.readByteAddr s.rdata) { s with ridx := s.plus s.ridx 1 }
      | _ => s

/-- After the event: SEQ advances, but for a bus fault. -/
def State.settled (s : State) : State := if s.faulted then s else advance s

/-- The step of a busy block, other than a response: one event, then SEQ advances. -/
theorem stepEvent_busy {s : State} (hs : s.stopped = false) (hi : s.seq ≠ .idle)
    (hr : ∀ st res, s.seq ≠ .respond st res) : stepEvent s = .next s.event.settled := by
  have hf : s.faulted = false := by
    simp only [State.stopped, Bool.or_eq_false_iff] at hs; exact hs.1
  have hq : s.seq ≠ .faulted := by
    simp only [State.stopped, Bool.or_eq_false_iff, decide_eq_false_iff_not] at hs; exact hs.2
  unfold stepEvent
  simp only [hs, hi, if_false, Bool.false_eq_true]
  cases hc : s.cycleInstr with
  | some i =>
    obtain ⟨k, hk, he⟩ := exec_cycleInstr hs hc
    simp [he, afterCycle, State.event, hk, State.settled]
  | none =>
    have hk : s.seq.cycle = none := by
      unfold State.cycleInstr at hc
      cases hk : s.seq.cycle with
      | none => rfl
      | some k => cases k <;> simp [hk] at hc
    cases hq' : s.seq with
    | idle => exact absurd hq' hi
    | faulted => exact absurd hq' hq
    | respond st res => exact absurd hq' (hr st res)
    | rqf p =>
      cases p <;> simp [hq', Seq.cycle, Rqf.cycle] at hk
      simp [stepOther, hq', State.event, State.comingRead, Seq.cycle, Rqf.cycle, stepRead, afterCycle, State.settled,
        State.at]
    | gbsLow p =>
      cases p <;> simp [hq', Seq.cycle, Rqf.cycle] at hk
      simp [stepOther, hq', State.event, State.comingRead, Seq.cycle, Rqf.cycle, stepRead, afterCycle, State.settled,
        State.at]
    | gbsHigh p =>
      cases p <;> simp [hq', Seq.cycle, Rqf.cycle] at hk
      simp [stepOther, hq', State.event, State.comingRead, Seq.cycle, Rqf.cycle, stepRead, afterCycle, State.settled,
        State.at]
    | _ =>
      first
        | (simp [hq', Seq.cycle] at hk; done)
        | simp [stepOther, hq', State.event, State.comingRead, Seq.cycle, stepRead, afterCycle, State.settled,
            State.at, stepWrite16, stepSrcLow, stepSrcHigh, stepDeliver, hf, Config.extId1Offset,
            Config.extId2Offset]

/-- The response step. -/
theorem stepEvent_respond {s : State} {st : Status} {res : BitVec 64} (hf : s.faulted = false)
    (hq : s.seq = .respond st res) : stepEvent s = .next (s.respond st res) := by
  simp [stepEvent, State.stopped, hf, hq, State.cycleInstr, Seq.cycle, stepOther, stepRespond]

/-! ## The idle block -/

/-- How an accepted request starts its operation: `u` is the state with the request latched, `t` the next state. -/
inductive Starts (u : State) : State → Prop where
  | rejected : Starts u (u.reply .illegalRequest 0)
  | init : u.op = Opcode.init → admitsInit u = true →
      Starts u (State.reply .success 0 { u with base := u.a0, baseValid := true })
  | write16 : u.op = Opcode.write16 → admitsAddress u = true → Starts u (u.goTo .wrCyc)
  | read16 : u.op = Opcode.read16 → admitsAddress u = true → Starts u (u.goTo .rdCyc)
  | unlock : u.op = Opcode.unlock → admitsBase u = true → Starts u (u.goTo .unlU1)
  | reset : u.op = Opcode.reset → admitsBase u = true → Starts u (u.goTo (.rst .u1))
  | poll : u.op = Opcode.poll → admitsAddress u = true → Starts u (pollStart .pollRd u.a0 u.d u)
  | getManufacturerId : u.op = Opcode.getManufacturerId → admitsBase u = true → Starts u (u.goTo .midU1)
  | getDeviceId : u.op = Opcode.getDeviceId → admitsBase u = true → Starts u (u.goTo .didU1)
  | readQueryField : u.op = Opcode.readQueryField → admitsOffset u = true → Starts u (u.goTo (.rqf .u1))
  | getBlockSize : u.op = Opcode.getBlockSize → admitsOffsets u = true → Starts u (u.goTo (.gbsLow .u1))
  | query : u.op = Opcode.query → admitsBase u = true → Starts u (queryKey u)
  | wordProgram : u.op = Opcode.wordProgram → admitsOffset u = true → Starts u (u.goTo .wpU1)
  | eraseBlock : u.op = Opcode.eraseBlock → admitsOffset u = true → Starts u (u.goTo (.erRst0 .u1))
  | writeBuffer : u.op = Opcode.writeBuffer → admitsOffset u = true → Starts u (wbStart u)
  | readBuffer : u.op = Opcode.readBuffer → admitsBase u = true → Starts u (rbNext { u with ridx := 0 })

/-- The operation code a request word decodes to is its own (30_encoding.md R102). -/
theorem decode_op {w n : Nat} (h : (opOf w).toNat = n) : opOf w = BitVec.ofNat 8 n := by
  rw [← h]; simp

/-- A decoded request at a ready block is accepted with the word's own fields and starts, or is rejected. -/
theorem exec_decoded {aw w : Nat} {i : Instr} {s t : State} (hr : s.Ready) (hd : decode aw w = .ok i)
    (h : exec i s = .next t) : Starts (s.accept (opOf w) (fieldsOf aw w)) t := by
  have key : ∀ {op : BitVec 8} {admits : State → Bool} {start : State → State},
      request op (fieldsOf aw w) admits start s = .next t →
      (admits (s.accept op (fieldsOf aw w)) = true ∧ t = start (s.accept op (fieldsOf aw w))) ∨
        t = (s.accept op (fieldsOf aw w)).reply .illegalRequest 0 := by
    intro op admits start hq
    cases ha : admits (s.accept op (fieldsOf aw w))
    · rw [request_rejected hr ha] at hq
      exact .inr (by simpa using hq.symm)
    · rw [request_admitted hr ha] at hq
      exact .inl ⟨rfl, by simpa using hq.symm⟩
  unfold decode at hd
  split at hd <;> simp only [Decoded.ok.injEq, reduceCtorEq] at hd <;> subst hd <;> rename_i hn <;>
    rw [decode_op hn] <;>
    simp only [exec, execInit, execWrite16, execRead16, execUnlock, execReset, execPoll, execGetManufacturerId,
      execGetDeviceId, execReadQueryField, execGetBlockSize, execQuery, execWordProgram, execEraseBlock,
      execWriteBuffer, execReadBuffer] at h <;>
    obtain ⟨ha, rfl⟩ | rfl := key h
  all_goals first
    | exact .rejected
    | exact .init rfl ha
    | exact .write16 rfl ha
    | exact .read16 rfl ha
    | exact .unlock rfl ha
    | exact .reset rfl ha
    | exact .poll rfl ha
    | exact .getManufacturerId rfl ha
    | exact .getDeviceId rfl ha
    | exact .readQueryField rfl ha
    | exact .getBlockSize rfl ha
    | exact .query rfl ha
    | exact .wordProgram rfl ha
    | exact .eraseBlock rfl ha
    | exact .writeBuffer rfl ha
    | exact .readBuffer rfl ha

/-- Everything an idle block's step can do: wait, or accept the oldest request and start it. -/
theorem stepIdle_cases {s t : State} (hr : s.Ready) (h : stepIdle s = .next t) :
    (s.requests = [] ∧ t = s) ∨
      ∃ r rest, s.requests = r :: rest ∧
        Starts ((s.takeRequest r rest).accept (opOf r.word) (fieldsOf s.params.aw r.word)) t := by
  unfold stepIdle at h
  split at h
  · exact .inl ⟨by assumption, by simpa using h.symm⟩
  · rename_i r rest hq
    refine .inr ⟨r, rest, hq, ?_⟩
    have hr' : (s.takeRequest r rest).Ready := hr
    split at h
    · rename_i i hd
      exact exec_decoded hr' hd h
    · unfold illegalRequest at h
      rw [request_rejected hr' rfl] at h
      have := Starts.rejected (u := (s.takeRequest r rest).accept (opOf r.word) (fieldsOf s.params.aw r.word))
      simpa using (by simpa using h : _ = t) ▸ this

/-- Everything a step that answers a next state can have done. -/
theorem step_cases {s t : State} (h : step s = .next t) :
    (s.resetAsserted = true ∧ t = s.popReset.hardwareReset) ∨
    (s.resetAsserted = false ∧ s.faulted = false ∧
      ((s.seq = .idle ∧ stepIdle s.popReset = .next t) ∨
       (∃ st res, s.seq = .respond st res ∧ t = s.popReset.respond st res) ∨
       (s.seq ≠ .idle ∧ s.seq ≠ .faulted ∧ (∀ st res, s.seq ≠ .respond st res) ∧
        t = s.popReset.event.settled))) := by
  unfold step at h
  cases hr : s.resetAsserted
  · simp only [hr, Bool.false_eq_true, if_false] at h
    refine .inr ⟨rfl, ?_⟩
    cases hs : s.popReset.stopped
    · have hf : s.faulted = false := by
        simp only [State.stopped, Bool.or_eq_false_iff] at hs; exact hs.1
      have hq : s.seq ≠ .faulted := by
        simp only [State.stopped, Bool.or_eq_false_iff, decide_eq_false_iff_not] at hs; exact hs.2
      refine ⟨hf, ?_⟩
      by_cases hi : s.seq = .idle
      · exact .inl ⟨hi, by simpa [stepEvent, hs, hi] using h⟩
      by_cases hp : ∃ st res, s.seq = .respond st res
      · obtain ⟨st, res, hp⟩ := hp
        rw [stepEvent_respond (by simpa using hf) (by simpa using hp)] at h
        exact .inr (.inl ⟨st, res, hp, by simpa using h.symm⟩)
      · have hp' : ∀ st res, s.seq ≠ .respond st res := fun st res e => hp ⟨st, res, e⟩
        rw [stepEvent_busy hs (by simpa using hi) (by simpa using hp')] at h
        exact .inr (.inr ⟨hi, hq, hp', by simpa using h.symm⟩)
    · simp [stepEvent, hs] at h
  · exact .inl ⟨rfl, by simpa [hr] using h.symm⟩

end Sys2Proof.Machine
end

