-- ==== Sys2Proof/Laws/Frame.lean ====
section
/-! SUPPORT. The frames of the shared operations: what advancing, starting an operation and the event of a busy block can
write, and one lemma per field each leaves alone. -/

namespace Sys2Proof.Machine


/-- What advancing can write. -/
theorem advance_writes (s : State) :
    ∃ q tgt ex cnt pa rm b w acc lo c p, advance s =
      { s with
        seq := q, ptgt := tgt, expect := ex, pollCnt := cnt, paddr := pa, rem := rm, bw := b, wi := w,
        idacc := acc, qlow := lo, rcell := c, pres := p } := by
  unfold advance
  cases hq : s.seq <;>
    simp only [rstNext, rqfNext, pollAfterRead, pollTest, pollReturn, pollStart, wbPageDone, wbNextPage,
      wbWordDone, rbNext, State.goTo, State.reply, hq]
  all_goals repeat' split
  all_goals first
    | exact ⟨_, _, _, _, _, _, _, _, _, _, _, _, rfl⟩

/-- What the start of an operation can write. -/
theorem Starts.writes {u t : State} (h : Starts u t) :
    ∃ b bv q tgt ex cnt pa rm w si ri p, t =
      { u with
        base := b, baseValid := bv, seq := q, ptgt := tgt, expect := ex, pollCnt := cnt, paddr := pa, rem := rm,
        bw := w, sidx := si, ridx := ri, pres := p } := by
  cases h <;> simp only [pollTest, pollReturn, pollStart, wbStart, wbNextPage, rbNext, queryKey, State.goTo,
    State.reply]
  all_goals repeat' split
  all_goals exact ⟨_, _, _, _, _, _, _, _, _, _, _, _, rfl⟩

/-- What the event of a busy block can write. -/
theorem event_writes (s : State) :
    ∃ q v tr dv dr fp fa wd si ri, s.event =
      { s with
        seq := q, rdata := v, trace := tr, device := dv, draws := dr, faultPort := fp, faulted := fa, wdata := wd,
        sidx := si, ridx := ri } := by
  unfold State.event State.writeCycle State.beforeCycle
  cases hk : s.seq.cycle
  · cases ha : s.comingRead
    · dsimp only
      split <;> try simp only [State.busWrite, State.endCycle, State.fetchSrc, State.deliver, State.log,
        State.raiseBusFault]
      all_goals repeat' split
      all_goals exact ⟨_, _, _, _, _, _, _, _, _, _, rfl⟩
    · simp only [State.busRead, State.endCycle, State.raiseBusFault]
      all_goals repeat' split
      all_goals exact ⟨_, _, _, _, _, _, _, _, _, _, rfl⟩
  · simp only [State.busWrite, State.endCycle, State.raiseBusFault]
    all_goals repeat' split
    all_goals exact ⟨_, _, _, _, _, _, _, _, _, _, rfl⟩

/-! Advancing leaves these alone. -/

@[simp] theorem advance_base (s : State) : (advance s).base = s.base := by
  obtain ⟨_, _, _, _, _, _, _, _, _, _, _, _, h⟩ := advance_writes s; rw [h]
@[simp] theorem advance_baseValid (s : State) : (advance s).baseValid = s.baseValid := by
  obtain ⟨_, _, _, _, _, _, _, _, _, _, _, _, h⟩ := advance_writes s; rw [h]
@[simp] theorem advance_op (s : State) : (advance s).op = s.op := by
  obtain ⟨_, _, _, _, _, _, _, _, _, _, _, _, h⟩ := advance_writes s; rw [h]
@[simp] theorem advance_kind (s : State) : (advance s).kind = s.kind := by
  obtain ⟨_, _, _, _, _, _, _, _, _, _, _, _, h⟩ := advance_writes s; rw [h]
@[simp] theorem advance_a0 (s : State) : (advance s).a0 = s.a0 := by
  obtain ⟨_, _, _, _, _, _, _, _, _, _, _, _, h⟩ := advance_writes s; rw [h]
@[simp] theorem advance_a1 (s : State) : (advance s).a1 = s.a1 := by
  obtain ⟨_, _, _, _, _, _, _, _, _, _, _, _, h⟩ := advance_writes s; rw [h]
@[simp] theorem advance_d (s : State) : (advance s).d = s.d := by
  obtain ⟨_, _, _, _, _, _, _, _, _, _, _, _, h⟩ := advance_writes s; rw [h]
@[simp] theorem advance_rdata (s : State) : (advance s).rdata = s.rdata := by
  obtain ⟨_, _, _, _, _, _, _, _, _, _, _, _, h⟩ := advance_writes s; rw [h]
@[simp] theorem advance_sidx (s : State) : (advance s).sidx = s.sidx := by
  obtain ⟨_, _, _, _, _, _, _, _, _, _, _, _, h⟩ := advance_writes s; rw [h]
@[simp] theorem advance_wdata (s : State) : (advance s).wdata = s.wdata := by
  obtain ⟨_, _, _, _, _, _, _, _, _, _, _, _, h⟩ := advance_writes s; rw [h]
@[simp] theorem advance_ridx (s : State) : (advance s).ridx = s.ridx := by
  obtain ⟨_, _, _, _, _, _, _, _, _, _, _, _, h⟩ := advance_writes s; rw [h]
@[simp] theorem advance_status (s : State) : (advance s).status = s.status := by
  obtain ⟨_, _, _, _, _, _, _, _, _, _, _, _, h⟩ := advance_writes s; rw [h]
@[simp] theorem advance_result (s : State) : (advance s).result = s.result := by
  obtain ⟨_, _, _, _, _, _, _, _, _, _, _, _, h⟩ := advance_writes s; rw [h]
@[simp] theorem advance_faulted (s : State) : (advance s).faulted = s.faulted := by
  obtain ⟨_, _, _, _, _, _, _, _, _, _, _, _, h⟩ := advance_writes s; rw [h]
@[simp] theorem advance_params (s : State) : (advance s).params = s.params := by
  obtain ⟨_, _, _, _, _, _, _, _, _, _, _, _, h⟩ := advance_writes s; rw [h]
@[simp] theorem advance_requests (s : State) : (advance s).requests = s.requests := by
  obtain ⟨_, _, _, _, _, _, _, _, _, _, _, _, h⟩ := advance_writes s; rw [h]
@[simp] theorem advance_srcBuf (s : State) : (advance s).srcBuf = s.srcBuf := by
  obtain ⟨_, _, _, _, _, _, _, _, _, _, _, _, h⟩ := advance_writes s; rw [h]
@[simp] theorem advance_faultPort (s : State) : (advance s).faultPort = s.faultPort := by
  obtain ⟨_, _, _, _, _, _, _, _, _, _, _, _, h⟩ := advance_writes s; rw [h]
@[simp] theorem advance_resetPort (s : State) : (advance s).resetPort = s.resetPort := by
  obtain ⟨_, _, _, _, _, _, _, _, _, _, _, _, h⟩ := advance_writes s; rw [h]
@[simp] theorem advance_device (s : State) : (advance s).device = s.device := by
  obtain ⟨_, _, _, _, _, _, _, _, _, _, _, _, h⟩ := advance_writes s; rw [h]
@[simp] theorem advance_trace (s : State) : (advance s).trace = s.trace := by
  obtain ⟨_, _, _, _, _, _, _, _, _, _, _, _, h⟩ := advance_writes s; rw [h]
@[simp] theorem advance_draws (s : State) : (advance s).draws = s.draws := by
  obtain ⟨_, _, _, _, _, _, _, _, _, _, _, _, h⟩ := advance_writes s; rw [h]

/-! The event of a busy block leaves these alone. -/

@[simp] theorem event_base (s : State) : s.event.base = s.base := by
  obtain ⟨_, _, _, _, _, _, _, _, _, _, h⟩ := event_writes s; rw [h]
@[simp] theorem event_baseValid (s : State) : s.event.baseValid = s.baseValid := by
  obtain ⟨_, _, _, _, _, _, _, _, _, _, h⟩ := event_writes s; rw [h]
@[simp] theorem event_op (s : State) : s.event.op = s.op := by
  obtain ⟨_, _, _, _, _, _, _, _, _, _, h⟩ := event_writes s; rw [h]
@[simp] theorem event_kind (s : State) : s.event.kind = s.kind := by
  obtain ⟨_, _, _, _, _, _, _, _, _, _, h⟩ := event_writes s; rw [h]
@[simp] theorem event_a0 (s : State) : s.event.a0 = s.a0 := by
  obtain ⟨_, _, _, _, _, _, _, _, _, _, h⟩ := event_writes s; rw [h]
@[simp] theorem event_a1 (s : State) : s.event.a1 = s.a1 := by
  obtain ⟨_, _, _, _, _, _, _, _, _, _, h⟩ := event_writes s; rw [h]
@[simp] theorem event_d (s : State) : s.event.d = s.d := by
  obtain ⟨_, _, _, _, _, _, _, _, _, _, h⟩ := event_writes s; rw [h]
@[simp] theorem event_ptgt (s : State) : s.event.ptgt = s.ptgt := by
  obtain ⟨_, _, _, _, _, _, _, _, _, _, h⟩ := event_writes s; rw [h]
@[simp] theorem event_expect (s : State) : s.event.expect = s.expect := by
  obtain ⟨_, _, _, _, _, _, _, _, _, _, h⟩ := event_writes s; rw [h]
@[simp] theorem event_pollCnt (s : State) : s.event.pollCnt = s.pollCnt := by
  obtain ⟨_, _, _, _, _, _, _, _, _, _, h⟩ := event_writes s; rw [h]
@[simp] theorem event_paddr (s : State) : s.event.paddr = s.paddr := by
  obtain ⟨_, _, _, _, _, _, _, _, _, _, h⟩ := event_writes s; rw [h]
@[simp] theorem event_rem (s : State) : s.event.rem = s.rem := by
  obtain ⟨_, _, _, _, _, _, _, _, _, _, h⟩ := event_writes s; rw [h]
@[simp] theorem event_bw (s : State) : s.event.bw = s.bw := by
  obtain ⟨_, _, _, _, _, _, _, _, _, _, h⟩ := event_writes s; rw [h]
@[simp] theorem event_wi (s : State) : s.event.wi = s.wi := by
  obtain ⟨_, _, _, _, _, _, _, _, _, _, h⟩ := event_writes s; rw [h]
@[simp] theorem event_idacc (s : State) : s.event.idacc = s.idacc := by
  obtain ⟨_, _, _, _, _, _, _, _, _, _, h⟩ := event_writes s; rw [h]
@[simp] theorem event_qlow (s : State) : s.event.qlow = s.qlow := by
  obtain ⟨_, _, _, _, _, _, _, _, _, _, h⟩ := event_writes s; rw [h]
@[simp] theorem event_rcell (s : State) : s.event.rcell = s.rcell := by
  obtain ⟨_, _, _, _, _, _, _, _, _, _, h⟩ := event_writes s; rw [h]
@[simp] theorem event_pres (s : State) : s.event.pres = s.pres := by
  obtain ⟨_, _, _, _, _, _, _, _, _, _, h⟩ := event_writes s; rw [h]
@[simp] theorem event_status (s : State) : s.event.status = s.status := by
  obtain ⟨_, _, _, _, _, _, _, _, _, _, h⟩ := event_writes s; rw [h]
@[simp] theorem event_result (s : State) : s.event.result = s.result := by
  obtain ⟨_, _, _, _, _, _, _, _, _, _, h⟩ := event_writes s; rw [h]
@[simp] theorem event_params (s : State) : s.event.params = s.params := by
  obtain ⟨_, _, _, _, _, _, _, _, _, _, h⟩ := event_writes s; rw [h]
@[simp] theorem event_requests (s : State) : s.event.requests = s.requests := by
  obtain ⟨_, _, _, _, _, _, _, _, _, _, h⟩ := event_writes s; rw [h]
@[simp] theorem event_srcBuf (s : State) : s.event.srcBuf = s.srcBuf := by
  obtain ⟨_, _, _, _, _, _, _, _, _, _, h⟩ := event_writes s; rw [h]
@[simp] theorem event_resetPort (s : State) : s.event.resetPort = s.resetPort := by
  obtain ⟨_, _, _, _, _, _, _, _, _, _, h⟩ := event_writes s; rw [h]

/-! The event with the advance after it. -/

@[simp] theorem settled_base (s : State) : s.settled.base = s.base := by
  unfold State.settled; split <;> simp
@[simp] theorem settled_baseValid (s : State) : s.settled.baseValid = s.baseValid := by
  unfold State.settled; split <;> simp
@[simp] theorem settled_op (s : State) : s.settled.op = s.op := by
  unfold State.settled; split <;> simp
@[simp] theorem settled_kind (s : State) : s.settled.kind = s.kind := by
  unfold State.settled; split <;> simp
@[simp] theorem settled_a0 (s : State) : s.settled.a0 = s.a0 := by
  unfold State.settled; split <;> simp
@[simp] theorem settled_a1 (s : State) : s.settled.a1 = s.a1 := by
  unfold State.settled; split <;> simp
@[simp] theorem settled_d (s : State) : s.settled.d = s.d := by
  unfold State.settled; split <;> simp
@[simp] theorem settled_rdata (s : State) : s.settled.rdata = s.rdata := by
  unfold State.settled; split <;> simp
@[simp] theorem settled_sidx (s : State) : s.settled.sidx = s.sidx := by
  unfold State.settled; split <;> simp
@[simp] theorem settled_wdata (s : State) : s.settled.wdata = s.wdata := by
  unfold State.settled; split <;> simp
@[simp] theorem settled_ridx (s : State) : s.settled.ridx = s.ridx := by
  unfold State.settled; split <;> simp
@[simp] theorem settled_status (s : State) : s.settled.status = s.status := by
  unfold State.settled; split <;> simp
@[simp] theorem settled_result (s : State) : s.settled.result = s.result := by
  unfold State.settled; split <;> simp
@[simp] theorem settled_faulted (s : State) : s.settled.faulted = s.faulted := by
  unfold State.settled; split <;> simp
@[simp] theorem settled_params (s : State) : s.settled.params = s.params := by
  unfold State.settled; split <;> simp
@[simp] theorem settled_requests (s : State) : s.settled.requests = s.requests := by
  unfold State.settled; split <;> simp
@[simp] theorem settled_srcBuf (s : State) : s.settled.srcBuf = s.srcBuf := by
  unfold State.settled; split <;> simp
@[simp] theorem settled_faultPort (s : State) : s.settled.faultPort = s.faultPort := by
  unfold State.settled; split <;> simp
@[simp] theorem settled_resetPort (s : State) : s.settled.resetPort = s.resetPort := by
  unfold State.settled; split <;> simp
@[simp] theorem settled_device (s : State) : s.settled.device = s.device := by
  unfold State.settled; split <;> simp
@[simp] theorem settled_trace (s : State) : s.settled.trace = s.trace := by
  unfold State.settled; split <;> simp
@[simp] theorem settled_draws (s : State) : s.settled.draws = s.draws := by
  unfold State.settled; split <;> simp

/-! Starting an operation leaves these alone. -/

theorem Starts.op_eq {u t : State} (h : Starts u t) : t.op = u.op := by
  obtain ⟨_, _, _, _, _, _, _, _, _, _, _, _, rfl⟩ := h.writes; rfl
theorem Starts.kind_eq {u t : State} (h : Starts u t) : t.kind = u.kind := by
  obtain ⟨_, _, _, _, _, _, _, _, _, _, _, _, rfl⟩ := h.writes; rfl
theorem Starts.a0_eq {u t : State} (h : Starts u t) : t.a0 = u.a0 := by
  obtain ⟨_, _, _, _, _, _, _, _, _, _, _, _, rfl⟩ := h.writes; rfl
theorem Starts.a1_eq {u t : State} (h : Starts u t) : t.a1 = u.a1 := by
  obtain ⟨_, _, _, _, _, _, _, _, _, _, _, _, rfl⟩ := h.writes; rfl
theorem Starts.d_eq {u t : State} (h : Starts u t) : t.d = u.d := by
  obtain ⟨_, _, _, _, _, _, _, _, _, _, _, _, rfl⟩ := h.writes; rfl
theorem Starts.rdata_eq {u t : State} (h : Starts u t) : t.rdata = u.rdata := by
  obtain ⟨_, _, _, _, _, _, _, _, _, _, _, _, rfl⟩ := h.writes; rfl
theorem Starts.wi_eq {u t : State} (h : Starts u t) : t.wi = u.wi := by
  obtain ⟨_, _, _, _, _, _, _, _, _, _, _, _, rfl⟩ := h.writes; rfl
theorem Starts.wdata_eq {u t : State} (h : Starts u t) : t.wdata = u.wdata := by
  obtain ⟨_, _, _, _, _, _, _, _, _, _, _, _, rfl⟩ := h.writes; rfl
theorem Starts.idacc_eq {u t : State} (h : Starts u t) : t.idacc = u.idacc := by
  obtain ⟨_, _, _, _, _, _, _, _, _, _, _, _, rfl⟩ := h.writes; rfl
theorem Starts.qlow_eq {u t : State} (h : Starts u t) : t.qlow = u.qlow := by
  obtain ⟨_, _, _, _, _, _, _, _, _, _, _, _, rfl⟩ := h.writes; rfl
theorem Starts.rcell_eq {u t : State} (h : Starts u t) : t.rcell = u.rcell := by
  obtain ⟨_, _, _, _, _, _, _, _, _, _, _, _, rfl⟩ := h.writes; rfl
theorem Starts.status_eq {u t : State} (h : Starts u t) : t.status = u.status := by
  obtain ⟨_, _, _, _, _, _, _, _, _, _, _, _, rfl⟩ := h.writes; rfl
theorem Starts.result_eq {u t : State} (h : Starts u t) : t.result = u.result := by
  obtain ⟨_, _, _, _, _, _, _, _, _, _, _, _, rfl⟩ := h.writes; rfl
theorem Starts.faulted_eq {u t : State} (h : Starts u t) : t.faulted = u.faulted := by
  obtain ⟨_, _, _, _, _, _, _, _, _, _, _, _, rfl⟩ := h.writes; rfl
theorem Starts.params_eq {u t : State} (h : Starts u t) : t.params = u.params := by
  obtain ⟨_, _, _, _, _, _, _, _, _, _, _, _, rfl⟩ := h.writes; rfl
theorem Starts.requests_eq {u t : State} (h : Starts u t) : t.requests = u.requests := by
  obtain ⟨_, _, _, _, _, _, _, _, _, _, _, _, rfl⟩ := h.writes; rfl
theorem Starts.srcBuf_eq {u t : State} (h : Starts u t) : t.srcBuf = u.srcBuf := by
  obtain ⟨_, _, _, _, _, _, _, _, _, _, _, _, rfl⟩ := h.writes; rfl
theorem Starts.faultPort_eq {u t : State} (h : Starts u t) : t.faultPort = u.faultPort := by
  obtain ⟨_, _, _, _, _, _, _, _, _, _, _, _, rfl⟩ := h.writes; rfl
theorem Starts.resetPort_eq {u t : State} (h : Starts u t) : t.resetPort = u.resetPort := by
  obtain ⟨_, _, _, _, _, _, _, _, _, _, _, _, rfl⟩ := h.writes; rfl
theorem Starts.device_eq {u t : State} (h : Starts u t) : t.device = u.device := by
  obtain ⟨_, _, _, _, _, _, _, _, _, _, _, _, rfl⟩ := h.writes; rfl
theorem Starts.trace_eq {u t : State} (h : Starts u t) : t.trace = u.trace := by
  obtain ⟨_, _, _, _, _, _, _, _, _, _, _, _, rfl⟩ := h.writes; rfl
theorem Starts.draws_eq {u t : State} (h : Starts u t) : t.draws = u.draws := by
  obtain ⟨_, _, _, _, _, _, _, _, _, _, _, _, rfl⟩ := h.writes; rfl

/-! The event itself. -/

/-- A bus fault sets FAULTED and SEQ together; otherwise the event leaves SEQ where it was. -/
theorem event_seq (s : State) (hf : s.faulted = false) :
    s.event.seq = if s.event.faulted then .faulted else s.seq := by
  unfold State.event State.writeCycle State.beforeCycle
  cases hk : s.seq.cycle with
  | none =>
    cases ha : s.comingRead with
    | none => dsimp only; split <;> simp [hf]
    | some a => simp [hf]
  | some k => cases k <;> simp [hf, State.busFaulting]

/-- Everything the event of a busy block can append to the trace: a command cycle, a bus read, the write of WRITE16, or a
host event. -/
theorem event_trace (s : State) :
    (∃ k, s.seq.cycle = some k ∧ s.event.trace = s.trace ++ [wr (s.cycleAddr k) (s.cycleValue k)]) ∨
    (s.seq.cycle = none ∧ ∃ a, s.comingRead = some a ∧ s.event.trace = s.trace ++ [rd a (s.readValue a)]) ∨
    (s.seq = .wrCyc ∧ s.event.trace = s.trace ++ [wr s.a0 s.d]) ∨
    ((s.seq = .wbSrc0 ∨ s.seq = .wbSrc1 ∨ s.seq = .rbOut) ∧ ∃ h, s.event.trace = s.trace ++ [.host h] ∧
      ∀ op k x y z, h ≠ .req op k x y z) ∨
    (s.seq = .idle ∨ s.seq = .faulted ∨ ∃ st res, s.seq = .respond st res) := by
  cases hk : s.seq.cycle with
  | some k =>
    refine .inl ⟨k, rfl, ?_⟩
    unfold State.event State.writeCycle State.beforeCycle
    cases k <;> simp [hk, wr]
  | none =>
    cases ha : s.comingRead with
    | some a =>
      refine .inr (.inl ⟨rfl, a, rfl, ?_⟩)
      simp [State.event, hk, ha, rd]
    | none =>
      refine .inr (.inr ?_)
      cases hq : s.seq with
      | rqf p => cases p <;> simp [hq, Seq.cycle, Rqf.cycle] at hk; simp [State.comingRead, hq] at ha
      | gbsLow p => cases p <;> simp [hq, Seq.cycle, Rqf.cycle] at hk; simp [State.comingRead, hq] at ha
      | gbsHigh p => cases p <;> simp [hq, Seq.cycle, Rqf.cycle] at hk; simp [State.comingRead, hq] at ha
      | wrCyc => simp [State.event, Seq.cycle, ha, hq, wr]
      | wbSrc0 => exact .inr (.inl ⟨by simp, _, by simp [State.event, Seq.cycle, ha, hq]; rfl, by simp⟩)
      | wbSrc1 => exact .inr (.inl ⟨by simp, _, by simp [State.event, Seq.cycle, ha, hq]; rfl, by simp⟩)
      | rbOut => exact .inr (.inl ⟨by simp, _, by simp [State.event, Seq.cycle, ha, hq]; rfl, by simp⟩)
      | idle => simp
      | faulted => simp
      | respond st res => simp
      | _ => first
        | (simp [hq, Seq.cycle] at hk; done)
        | simp [State.comingRead, hq] at ha

/-- The bus trace after the event of a command cycle. -/
theorem event_busTrace_cycle {s : State} {k : CycleKind} (hk : s.seq.cycle = some k) :
    s.event.busTrace = s.busTrace ++ [.w (s.cycleAddr k) (s.cycleValue k)] := by
  have happ : ∀ (x : List Event) (e : BusEvent), busEvents (x ++ [.bus e]) = busEvents x ++ [e] := by
    intro x e
    induction x with
    | nil => rfl
    | cons y ys ih => cases y <;> simp [busEvents, ih]
  unfold State.busTrace State.event State.writeCycle State.beforeCycle
  cases k <;> simp [hk, happ]

/-- How SEQ comes to a cycle that needs an unlock: from the cycle before it, by going there and nothing else. -/
theorem advance_to_cycle (s : State) :
    ((advance s).seq.isUnlock2 = true →
      s.seq.cycle = some .unlock1 ∧ (advance s).seq.inPage = s.seq.inPage ∧ advance s = s.goTo (advance s).seq) ∧
    ((advance s).seq.isPrivileged = true →
      s.seq.cycle = some .unlock2 ∧ (advance s).seq.inPage = s.seq.inPage ∧ advance s = s.goTo (advance s).seq) ∧
    ((advance s).seq.cycle = some .cfiEntry →
      s.seq.cycle = some .idEntry ∧ s.seq.inPage = false ∧ advance s = s.goTo (advance s).seq) := by
  unfold advance
  cases hq : s.seq
  all_goals try (rename_i r; rcases r with _ | _ | _ | _ | _ | _)
  all_goals try (rename_i r; rcases r with _ | _ | _)
  all_goals
    simp only [rstNext, rqfNext, pollAfterRead, pollTest, pollReturn, pollStart, wbPageDone, wbNextPage, wbWordDone,
      rbNext, State.goTo, State.reply, hq]
    repeat' split
  all_goals simp_all [Seq.cycle, Rqf.cycle, Rst.cycle, Seq.isUnlock2, Seq.isPrivileged, Seq.inPage]

/-- Advancing never leads to IDLE or FAULTED by itself, unless SEQ is there already. -/
theorem advance_seq (s : State) (h1 : s.seq ≠ .idle) (h2 : s.seq ≠ .faulted) :
    (advance s).seq ≠ .idle ∧ (advance s).seq ≠ .faulted := by
  unfold advance
  cases hq : s.seq <;>
    simp only [rstNext, rqfNext, pollAfterRead, pollTest, pollReturn, pollStart, wbPageDone, wbNextPage,
      wbWordDone, rbNext, State.goTo, State.reply, hq]
  all_goals repeat' split
  all_goals simp_all

/-- Starting an operation never leads to IDLE or FAULTED. -/
theorem Starts.seq_ne {u t : State} (h : Starts u t) : t.seq ≠ .idle ∧ t.seq ≠ .faulted := by
  cases h <;> simp only [pollTest, pollReturn, pollStart, wbStart, wbNextPage, rbNext, queryKey, State.goTo,
    State.reply]
  all_goals repeat' split
  all_goals simp

end Sys2Proof.Machine
end

