-- ==== Sys2Proof/Laws/Run.lean ====
section
/-! SUPPORT. Runs while the platform signals nothing (no bus fault, no hardware reset): each step of a busy block is
`State.quietStep`, which computes on a state whose SEQ is known. -/

namespace Sys2Proof.Machine

/-! ## Composing runs -/

theorem run_succ {n : Nat} {s t : State} (h : step s = .next t) : run (n + 1) s = run n t := by
  simp [run, h]

/-- A run goes on where the first part ended. -/
theorem run_add {m n : Nat} {s t : State} (h : run m s = .next t) : run (m + n) s = run n t := by
  induction m generalizing s with
  | zero => simp_all [run]
  | succ m ih =>
    rw [Nat.add_right_comm]
    rw [run] at h ⊢
    split at h
    · exact ih h
    · simp at h
    · simp at h

/-! ## The quiet step -/

/-- The event of a busy block when the platform signals no bus fault. -/
def State.quietEvent (s : State) : State :=
  match s.seq.cycle with
  | some k =>
    { s.beforeCycle k with
      trace := s.trace ++ [wr (s.cycleAddr k) (s.cycleValue k)]
      device := s.device.write s.params.aw (s.cycleAddr k) (s.cycleValue k) }
  | none =>
    match s.comingRead with
    | some a =>
      { s with
        rdata := s.device.answer s.params.aw s.busTrace a
        trace := s.trace ++ [rd a (s.device.answer s.params.aw s.busTrace a)]
        device := s.device.afterRead }
    | none =>
      match s.seq with
      | .wrCyc => { s with trace := s.trace ++ [wr s.a0 s.d], device := s.device.write s.params.aw s.a0 s.d }
      | .wbSrc0 => State.fetchSrc s.sidx { s with wdata := joinBytes (highByte s.wdata) (s.srcByte s.sidx) }
      | .wbSrc1 => State.fetchSrc (s.srcIndex s.sidx 1)
          { s with
            wdata := joinBytes (s.srcByte (s.srcIndex s.sidx 1)) (lowByte s.wdata)
            sidx := s.srcIndex s.sidx 2 }
      | .rbOut => State.deliver s.ridx (byteAt s.readByteAddr s.rdata) { s with ridx := s.plus s.ridx 1 }
      | _ => s

theorem event_quiet {s : State} (h : s.faultPort = []) : s.event = s.quietEvent := by
  unfold State.event State.quietEvent State.writeCycle
  cases hk : s.seq.cycle with
  | some k => cases k <;> simp [State.busWrite, State.endCycle, State.busFaulting, h, State.beforeCycle, wr]
  | none =>
    cases ha : s.comingRead with
    | some a => simp [State.busRead, State.endCycle, State.busFaulting, State.readValue, h, rd]
    | none => cases hq : s.seq <;> simp [State.busWrite, State.endCycle, State.busFaulting, h, wr, hq]

theorem quietEvent_faulted {s : State} (h : s.faultPort = []) : s.quietEvent.faulted = s.faulted := by
  rw [← event_quiet h]
  unfold State.event State.writeCycle
  split
  · rename_i k _
    cases k <;> simp [State.busWrite, State.endCycle, State.busFaulting, h, State.beforeCycle]
  · split
    · simp [State.busRead, State.endCycle, State.busFaulting, State.readValue, h]
    · split <;> simp [State.busWrite, State.endCycle, State.busFaulting, h]

/-- The next state of a busy block when the platform signals nothing. -/
def State.quietStep (s : State) : State :=
  match s.seq with
  | .respond st res => s.respond st res
  | _ => advance s.quietEvent

theorem step_quiet {s : State} (hp : s.faultPort = []) (hr : s.resetPort = []) (hf : s.faulted = false)
    (h1 : s.seq ≠ .idle) (h2 : s.seq ≠ .faulted) : step s = .next s.quietStep := by
  have hpop : s.popReset = s := by cases s; simp_all [State.popReset]
  have hs : s.stopped = false := by simp [State.stopped, hf, h2]
  have hra : s.resetAsserted = false := by simp [State.resetAsserted, hr]
  simp only [step, hra, hpop, Bool.false_eq_true, if_false]
  by_cases hq : ∃ st res, s.seq = .respond st res
  · obtain ⟨st, res, hq⟩ := hq
    simp [stepEvent_respond hf hq, State.quietStep, hq]
  · have h3 : ∀ st res, s.seq ≠ .respond st res := fun st res e => hq ⟨st, res, e⟩
    rw [stepEvent_busy hs h1 h3, State.settled, event_quiet hp, quietEvent_faulted hp, hf]
    simp only [Bool.false_eq_true, if_false]
    unfold State.quietStep
    split
    · exact absurd ‹_› (h3 _ _)
    · rfl

/-! ## Traces and alignment -/

theorem busEvents_append (x y : List Event) : busEvents (x ++ y) = busEvents x ++ busEvents y := by
  induction x with
  | nil => rfl
  | cons e es ih => cases e <;> simp [busEvents, ih]

theorem hostEvents_append (x y : List Event) : hostEvents (x ++ y) = hostEvents x ++ hostEvents y := by
  induction x with
  | nil => rfl
  | cons e es ih => cases e <;> simp [hostEvents, ih]

theorem Device.seen_append (aw : Nat) (x y : List Event) (dv : Device) :
    Device.seen aw (x ++ y) dv = Device.seen aw y (Device.seen aw x dv) := by
  induction x generalizing dv with
  | nil => rfl
  | cons e es ih =>
    cases e with
    | bus e => cases e <;> simp [Device.seen, ih]
    | host e => simp [Device.seen, ih]

/-! ## The one principle for invariants -/

/-- A property that each kind of step keeps is kept by `step`: hardware reset, the reset line's indication used up, a
request taken from the requester, its acceptance, its start, the response, and the event of a busy block. -/
theorem step_inv {P : State → Prop} (hreset : ∀ s, P s → P s.hardwareReset) (hpop : ∀ s, P s → P s.popReset)
    (htake : ∀ s r rest, P s → s.seq = .idle → P (s.takeRequest r rest))
    (hacc : ∀ s c f, P s → s.seq = .idle → P (s.accept c f))
    (hstart : ∀ u t, u.seq = .idle → u.faulted = false → P u → Starts u t → P t)
    (hresp : ∀ s st res, P s → s.seq = .respond st res → P (s.respond st res))
    (hev : ∀ s, s.faulted = false → s.seq ≠ .idle → s.seq ≠ .faulted → (∀ st res, s.seq ≠ .respond st res) →
      P s → P s.event.settled)
    {s t : State} (hP : P s) (h : step s = .next t) : P t := by
  have hp := hpop s hP
  obtain ⟨_, rfl⟩ | ⟨hr, hf, ⟨hq, h⟩ | ⟨st, res, hq, rfl⟩ | ⟨h1, h2, h3, rfl⟩⟩ := step_cases h
  · exact hreset _ hp
  · obtain ⟨_, rfl⟩ | ⟨r, rest, hrr, hs⟩ := stepIdle_cases (s := s.popReset) ⟨hq, hf⟩ h
    · exact hp
    · exact hstart _ _ (by simpa using hq) (by simpa using hf)
        (hacc _ _ _ (htake _ _ _ hp hq) (by simpa using hq)) hs
  · exact hresp _ _ _ hp hq
  · exact hev _ hf h1 h2 h3 hp

/-- The origin of a page's unlock, of the state and of the page it stands at. -/
theorem wbOrigin_eq (s : State) : s.wbOrigin = s.pageOrigin s.paddr := by
  unfold State.wbOrigin State.pageOrigin
  cases s.params.wbUnlockOrigin <;> rfl

/-! ## A request turned away -/

/-- A ready block turns away a request that fails its admission check. -/
theorem turnedAway_of_request {op : BitVec 8} {f : Fields} {admits : State → Bool} {start : State → State} {s : State}
    {i : Instr} (hi : exec i s = request op f admits start s) (hr : s.Ready) (hq : s.resetPort = [])
    (h : admits (s.accept op f) = false) : TurnedAway i s := by
  obtain ⟨h1, h2⟩ := hr
  refine ⟨(s.accept op f).rejectRequest, State.respond .illegalRequest 0 (s.accept op f).rejectRequest.popReset,
    .req op f.kind f.a0 f.a1 f.d, ?_, ?_, ?_⟩
  · simp [hi, request, h, State.stopped, State.accepting, h1, h2]
  · simp [step, stepEvent, State.stopped, State.accept, State.rejectRequest, State.reply, State.resetAsserted,
      State.popReset, hq, h2, State.goTo, stepOther, State.cycleInstr, Seq.cycle, stepRespond]
  · simp [State.respond, State.accept, State.rejectRequest, State.reply, State.popReset, respEvent, hq, h1, State.goTo]

end Sys2Proof.Machine
end

