-- ==== Sys2Proof/Laws/Copy.lean ====
section
/-! SUPPORT. The byte loop of READ_BUFFER (45_read_path.md R300), said once. -/

namespace Sys2Proof.Machine

/-- What one turn of the byte loop leaves: `v` is the value of the cell held, `c` its address, `es` the turn's events. -/
def State.copied (c : Nat) (v : Cell) (es : List Event) (s : State) : State :=
  { s with
    seq := .rbOut
    ridx := s.plus s.ridx 1
    rdata := v
    rcell := c
    trace := s.trace ++ es
    device := s.device.seen s.params.aw es }

/-- A turn that reads the byte's cell first. -/
theorem run_copyRead {s : State} (hp : s.faultPort = []) (hr : s.resetPort = []) (hf : s.faulted = false)
    (h1 : s.ridx ≠ s.a1) (hc : s.ridx = 0 ∨ cellOf s.readByteAddr ≠ s.rcell) :
    ∃ v, run 2 (rbNext s) = .next (rbNext (s.copied (cellOf s.readByteAddr) v
      [rd (cellOf s.readByteAddr) v, .host (.dst s.ridx (byteAt s.readByteAddr v))])) := by
  refine ⟨s.device.answer s.params.aw s.busTrace (cellOf s.readByteAddr), ?_⟩
  simp only [rbNext, h1, hc, if_true, if_false]
  simp [run, step_quiet, hp, hr, hf, State.goTo, State.quietStep, State.quietEvent, Seq.cycle, State.comingRead, advance,
    State.deliver, State.log, State.readByteAddr, rbNext, State.busTrace, State.copied, Device.seen, rd]

/-- A turn whose byte lies in the cell held. -/
theorem run_copyHeld {s : State} (hp : s.faultPort = []) (hr : s.resetPort = []) (hf : s.faulted = false)
    (h1 : s.ridx ≠ s.a1) (h0 : s.ridx ≠ 0) (hc : cellOf s.readByteAddr = s.rcell) :
    run 1 (rbNext s) = .next (rbNext (s.copied s.rcell s.rdata
      [.host (.dst s.ridx (byteAt s.readByteAddr s.rdata))])) := by
  have hn : ¬(s.ridx = 0 ∨ cellOf s.readByteAddr ≠ s.rcell) := fun h => h.elim h0 fun h => h hc
  have e : rbNext s = s.goTo .rbOut := by rw [rbNext, if_neg h1, if_neg hn]
  rw [e, run, step_quiet (s := s.goTo .rbOut) hp hr hf (by simp) (by simp)]
  simp [run, State.goTo, State.quietStep, State.quietEvent, Seq.cycle, State.comingRead, advance, State.deliver,
    State.log, State.readByteAddr, State.copied, Device.seen]

end Sys2Proof.Machine
end

