-- ==== Sys2Proof/Laws/Memory.lean ====
section
/-! SUPPORT. The device's array: reading back what was written, frames, and the canonical form every operation keeps. -/

namespace Sys2Proof.Machine

/-! ## Reading after writing -/

@[simp] theorem Memory.readByte_put (m : Memory) (a k : Nat) (b : Byte) :
    Memory.readByte (Memory.put a b m) k = if a = k then b else Memory.readByte m k := by
  induction m with
  | nil => simp [Memory.put, Memory.readByte]
  | cons c m ih =>
    obtain ⟨j, x⟩ := c
    simp only [Memory.put]
    split
    · simp [Memory.readByte]
    · split
      · rename_i h1 h2
        subst h2
        by_cases hk : a = k <;> simp [Memory.readByte, hk]
      · simp only [Memory.readByte, ih]
        by_cases hj : j = k
        · subst hj; simp_all
        · simp [hj]

@[simp] theorem Memory.readByte_eraseRange (m : Memory) (lo n k : Nat) :
    Memory.readByte (Memory.eraseRange lo n m) k =
      if lo ≤ k ∧ k < lo + n then Memory.unlisted else Memory.readByte m k := by
  induction m with
  | nil => simp [Memory.eraseRange, Memory.readByte]
  | cons c m ih =>
    obtain ⟨j, x⟩ := c
    have ih' : Memory.readByte (m.filter fun c => decide (c.1 < lo ∨ lo + n ≤ c.1)) k = _ := ih
    simp only [Memory.eraseRange, List.filter_cons, Memory.readByte]
    by_cases hj : j < lo ∨ lo + n ≤ j
    · simp only [hj, decide_true, if_true, Memory.readByte, ih']
      by_cases hk : j = k
      · subst hk
        have : ¬(lo ≤ j ∧ j < lo + n) := by omega
        simp [this]
      · simp [hk]
    · simp only [hj, decide_false, Bool.false_eq_true, if_false, ih']
      by_cases hk : j = k
      · subst hk
        have : lo ≤ j ∧ j < lo + n := by omega
        simp [this]
      · simp [hk]

@[simp] theorem Memory.readByte_writeByte (m : Memory) (a k : Nat) (b : Byte) :
    Memory.readByte (Memory.writeByte a b m) k = if a = k then b else Memory.readByte m k := by
  unfold Memory.writeByte
  split
  · rename_i hb
    subst hb
    rw [Memory.readByte_eraseRange]
    by_cases h : a = k
    · subst h; simp
    · have : ¬(a ≤ k ∧ k < a + 1) := by omega
      rw [if_neg this, if_neg h]
  · simp

/-- Joining a cell's bytes gives the cell. -/
@[simp] theorem joinBytes_high_low (v : Cell) : joinBytes (highByte v) (lowByte v) = v := by
  apply BitVec.eq_of_getLsbD_eq
  intro i hi
  rw [joinBytes, highByte, lowByte, BitVec.getLsbD_append, BitVec.getLsbD_extractLsb', BitVec.getLsbD_extractLsb']
  by_cases h : i < 8
  · simp [h]
  · have h8 : 8 + (i - 8) = i := by omega
    have h8' : i - 8 < 8 := by omega
    simp [h, h8, h8']

@[simp] theorem lowByte_joinBytes (hi lo : Byte) : lowByte (joinBytes hi lo) = lo := by
  apply BitVec.eq_of_getLsbD_eq
  intro i h
  rw [lowByte, joinBytes, BitVec.getLsbD_extractLsb', BitVec.getLsbD_append]
  simp [h]

@[simp] theorem highByte_joinBytes (hi lo : Byte) : highByte (joinBytes hi lo) = hi := by
  apply BitVec.eq_of_getLsbD_eq
  intro i h
  rw [highByte, joinBytes, BitVec.getLsbD_extractLsb', BitVec.getLsbD_append]
  simp [h]

/-- A cell reads back the value written. -/
@[simp] theorem Memory.readCell_writeCell_same (m : Memory) (a : Nat) (v : Cell) :
    Memory.readCell (Memory.writeCell a v m) a = v := by
  simp [Memory.readCell, Memory.writeCell]

/-- A write leaves every byte outside its cell alone. -/
theorem Memory.readByte_writeCell_other (m : Memory) (a : Nat) (v : Cell) (k : Nat) (h0 : k ≠ cellKey a)
    (h1 : k ≠ cellKey a + 1) : Memory.readByte (Memory.writeCell a v m) k = Memory.readByte m k := by
  simp [Memory.writeCell, Ne.symm h0, Ne.symm h1]

/-! ## The canonical form -/

theorem Memory.mem_put {m : Memory} {a : Nat} {b : Byte} {c : Host.Cell} (h : c ∈ Memory.put a b m) :
    c = (a, b) ∨ c ∈ m := by
  induction m with
  | nil => simpa [Memory.put] using h
  | cons d m ih =>
    obtain ⟨j, x⟩ := d
    simp only [Memory.put] at h
    split at h
    · simpa using h
    · split at h
      · simp only [List.mem_cons] at h ⊢
        tauto
      · simp only [List.mem_cons] at h ⊢
        rcases h with h | h
        · exact .inr (.inl h)
        · rcases ih h with h | h
          · exact .inl h
          · exact .inr (.inr h)

theorem Memory.wf_put {m : Memory} {a : Nat} {b : Byte} (hb : b ≠ Memory.unlisted) (h : Memory.wf m) :
    Memory.wf (Memory.put a b m) := by
  refine ⟨?_, fun c hc => ?_⟩
  · have h1 := h.1
    clear h hb
    induction m with
    | nil => simp [Memory.put]
    | cons d m ih =>
      obtain ⟨j, x⟩ := d
      rw [List.pairwise_cons] at h1
      simp only [Memory.put]
      split
      · rename_i ha
        rw [List.pairwise_cons, List.pairwise_cons]
        refine ⟨fun c hc => ?_, h1⟩
        rcases List.mem_cons.1 hc with rfl | hc
        · exact ha
        · exact lt_trans ha (h1.1 c hc)
      · split
        · rename_i ha
          subst ha
          exact List.pairwise_cons.2 ⟨h1.1, h1.2⟩
        · rename_i ha hb
          rw [List.pairwise_cons]
          refine ⟨fun c hc => ?_, ih h1.2⟩
          rcases Memory.mem_put hc with rfl | hc
          · show j < a
            omega
          · exact h1.1 c hc
  · rcases Memory.mem_put hc with rfl | hc
    · exact hb
    · exact h.2 c hc

theorem Memory.wf_eraseRange {m : Memory} (lo n : Nat) (h : Memory.wf m) :
    Memory.wf (Memory.eraseRange lo n m) :=
  ⟨h.1.filter _, fun c hc => h.2 c (List.mem_of_mem_filter hc)⟩

theorem Memory.wf_writeByte {m : Memory} (a : Nat) (b : Byte) (h : Memory.wf m) :
    Memory.wf (Memory.writeByte a b m) := by
  unfold Memory.writeByte
  split
  · exact Memory.wf_eraseRange a 1 h
  · exact Memory.wf_put ‹_› h

theorem Memory.wf_writeCell {m : Memory} (a : Nat) (v : Cell) (h : Memory.wf m) :
    Memory.wf (Memory.writeCell a v m) :=
  Memory.wf_writeByte _ _ (Memory.wf_writeByte _ _ h)

theorem Pending.wf_commit {m : Memory} (p : Pending) (h : Memory.wf m) : Memory.wf (p.commit m) := by
  cases p with
  | cell a v => exact Memory.wf_writeCell a v h
  | block lo n => exact Memory.wf_eraseRange lo n h

theorem Pending.wf_commits {m : Memory} (ps : List Pending) (h : Memory.wf m) :
    Memory.wf (ps.foldl Pending.commit m) := by
  induction ps generalizing m with
  | nil => exact h
  | cons p ps ih => exact ih (Pending.wf_commit p h)

end Sys2Proof.Machine
end

