-- ==== Sys2Proof/Laws/Device.lean ====
section
/-! SUPPORT. The device: the small lemmas of its operations, everything a bus write can do to the responder, and the
canonical form of its array. -/

namespace Sys2Proof.Machine

/-! ## The field an update writes, and those it leaves -/

@[simp] theorem Device.hearing_heard (dv : Device) (h : Heard) : (dv.hearing h).heard = h := rfl
@[simp] theorem Device.hearing_law (dv : Device) (h : Heard) : (dv.hearing h).law = dv.law := rfl
@[simp] theorem Device.hearing_script (dv : Device) (h : Heard) : (dv.hearing h).script = dv.script := rfl
@[simp] theorem Device.hearing_arr (dv : Device) (h : Heard) : (dv.hearing h).arr = dv.arr := rfl
@[simp] theorem Device.hearing_mode (dv : Device) (h : Heard) : (dv.hearing h).mode = dv.mode := rfl
@[simp] theorem Device.hearing_back (dv : Device) (h : Heard) : (dv.hearing h).back = dv.back := rfl
@[simp] theorem Device.hearing_busy (dv : Device) (h : Heard) : (dv.hearing h).busy = dv.busy := rfl
@[simp] theorem Device.hearing_pend (dv : Device) (h : Heard) : (dv.hearing h).pend = dv.pend := rfl
@[simp] theorem Device.hearing_wbp (dv : Device) (h : Heard) : (dv.hearing h).wbp = dv.wbp := rfl
@[simp] theorem Device.hearing_wbn (dv : Device) (h : Heard) : (dv.hearing h).wbn = dv.wbn := rfl
@[simp] theorem Device.hearing_lost (dv : Device) (h : Heard) : (dv.hearing h).lost = dv.lost := rfl
@[simp] theorem Device.hearing_since (dv : Device) (h : Heard) : (dv.hearing h).since = dv.since := rfl
@[simp] theorem Device.hearing_losses (dv : Device) (h : Heard) : (dv.hearing h).losses = dv.losses := rfl
@[simp] theorem Device.hearing_rbase (dv : Device) (h : Heard) : (dv.hearing h).rbase = dv.rbase := rfl
@[simp] theorem Device.hearing_rblock (dv : Device) (h : Heard) : (dv.hearing h).rblock = dv.rblock := rfl
@[simp] theorem Device.hearing_busyReads (dv : Device) (h : Heard) : (dv.hearing h).busyReads = dv.busyReads := rfl
@[simp] theorem Device.hearing_idTab (dv : Device) (h : Heard) : (dv.hearing h).idTab = dv.idTab := rfl
@[simp] theorem Device.hearing_cfiTab (dv : Device) (h : Heard) : (dv.hearing h).cfiTab = dv.cfiTab := rfl

@[simp] theorem Device.reset_law (dv : Device) : dv.reset.law = dv.law := rfl
@[simp] theorem Device.reset_script (dv : Device) : dv.reset.script = dv.script := rfl
@[simp] theorem Device.reset_arr (dv : Device) : dv.reset.arr = dv.arr := rfl
@[simp] theorem Device.reset_mode (dv : Device) : dv.reset.mode = .array := rfl
@[simp] theorem Device.reset_back (dv : Device) : dv.reset.back = dv.back := rfl
@[simp] theorem Device.reset_busy (dv : Device) : dv.reset.busy = .reads 0 := rfl
@[simp] theorem Device.reset_pend (dv : Device) : dv.reset.pend = [] := rfl
@[simp] theorem Device.reset_wbp (dv : Device) : dv.reset.wbp = dv.wbp := rfl
@[simp] theorem Device.reset_wbn (dv : Device) : dv.reset.wbn = dv.wbn := rfl
@[simp] theorem Device.reset_lost (dv : Device) : dv.reset.lost = dv.lost := rfl
@[simp] theorem Device.reset_since (dv : Device) : dv.reset.since = dv.since := rfl
@[simp] theorem Device.reset_losses (dv : Device) : dv.reset.losses = dv.losses := rfl
@[simp] theorem Device.reset_rbase (dv : Device) : dv.reset.rbase = dv.rbase := rfl
@[simp] theorem Device.reset_rblock (dv : Device) : dv.reset.rblock = dv.rblock := rfl
@[simp] theorem Device.reset_busyReads (dv : Device) : dv.reset.busyReads = dv.busyReads := rfl
@[simp] theorem Device.reset_idTab (dv : Device) : dv.reset.idTab = dv.idTab := rfl
@[simp] theorem Device.reset_cfiTab (dv : Device) : dv.reset.cfiTab = dv.cfiTab := rfl
@[simp] theorem Device.reset_heard (dv : Device) : dv.reset.heard = dv.heard := rfl

/-- Hearing an unlock changes nothing that is stored. -/
@[simp] theorem Device.hearing_stored (dv : Device) (h : Heard) (k : Nat) : (dv.hearing h).stored k = dv.stored k := rfl

/-- A reset changes nothing that is stored. -/
@[simp] theorem Device.reset_stored (dv : Device) (k : Nat) : dv.reset.stored k = dv.stored k := rfl

/-- Where the array is not lost, a stored byte is its own. -/
theorem Device.stored_of_kept {dv : Device} (h : dv.lost = false) (k : Nat) :
    dv.stored k = Memory.readByte dv.arr k := by
  simp [Device.stored, h]

/-- Where the array is lost and nothing was written since, every byte is the unknown one. -/
theorem Device.stored_of_lost {dv : Device} (h : dv.lost = true) (hs : dv.since = []) (k : Nat) :
    dv.stored k = Config.unknownByte dv.losses k := by
  simp [Device.stored, h, hs, inRanges]

/-! ## What lands in the array -/

@[simp] theorem Device.land_law (dv : Device) (p : Pending) : (dv.land p).law = dv.law := rfl
@[simp] theorem Device.land_mode (dv : Device) (p : Pending) : (dv.land p).mode = dv.mode := rfl
@[simp] theorem Device.land_busy (dv : Device) (p : Pending) : (dv.land p).busy = dv.busy := rfl
@[simp] theorem Device.land_lost (dv : Device) (p : Pending) : (dv.land p).lost = dv.lost := rfl
@[simp] theorem Device.land_losses (dv : Device) (p : Pending) : (dv.land p).losses = dv.losses := rfl
@[simp] theorem Device.land_rbase (dv : Device) (p : Pending) : (dv.land p).rbase = dv.rbase := rfl

@[simp] theorem inRanges_nil (k : Nat) : inRanges [] k = false := rfl

/-- A byte of the first range. -/
theorem inRanges_cons_of {lo n k : Nat} (rs : List (Nat × Nat)) (h : lo ≤ k ∧ k < lo + n) :
    inRanges ((lo, n) :: rs) k = true := by
  simp [inRanges, h.1, h.2]

/-- A byte outside the first range. -/
theorem inRanges_cons_not {lo n k : Nat} (rs : List (Nat × Nat)) (h : ¬(lo ≤ k ∧ k < lo + n)) :
    inRanges ((lo, n) :: rs) k = inRanges rs k := by
  rw [inRanges, List.any_cons, decide_eq_false h, Bool.false_or, inRanges]

/-- A cell that lands stores its value, every other byte stays. -/
@[simp] theorem Device.stored_land_cell (dv : Device) (a : Nat) (v : Cell) (k : Nat) :
    (dv.land (.cell a v)).stored k =
      if k = cellKey a then lowByte v else if k = cellKey a + 1 then highByte v else dv.stored k := by
  have hr : Memory.readByte (Memory.writeCell a v dv.arr) k =
      if k = cellKey a then lowByte v else if k = cellKey a + 1 then highByte v else Memory.readByte dv.arr k := by
    simp only [Memory.writeCell, Memory.readByte_writeByte, @eq_comm _ k]
    by_cases h0 : cellKey a = k
    · subst h0
      simp
    · simp [h0]
  simp only [Device.stored, Device.land, Pending.commit, Pending.range, hr]
  cases dv.lost
  · rfl
  · by_cases h : cellKey a ≤ k ∧ k < cellKey a + 2
    · have hk : k = cellKey a ∨ k = cellKey a + 1 := by omega
      simp only [if_true, inRanges_cons_of dv.since h]
      rcases hk with rfl | rfl <;> simp
    · have h0 : k ≠ cellKey a := by omega
      have h1 : k ≠ cellKey a + 1 := by omega
      simp only [if_true, inRanges_cons_not dv.since h, h0, h1, if_false]

/-- A block that lands stores erased bytes, every byte outside it stays. -/
@[simp] theorem Device.stored_land_block (dv : Device) (lo n k : Nat) :
    (dv.land (.block lo n)).stored k = if lo ≤ k ∧ k < lo + n then Memory.unlisted else dv.stored k := by
  simp only [Device.stored, Device.land, Pending.commit, Pending.range, Memory.readByte_eraseRange]
  cases dv.lost
  · rfl
  · by_cases h : lo ≤ k ∧ k < lo + n
    · simp only [if_true, inRanges_cons_of dv.since h, if_pos h, Bool.not_true, Bool.and_false, Bool.false_eq_true, if_false]
    · simp only [if_true, inRanges_cons_not dv.since h, if_neg h]

/-- A cell that lands reads back. -/
@[simp] theorem Device.storedCell_land_cell (dv : Device) (a : Nat) (v : Cell) :
    (dv.land (.cell a v)).storedCell a = v := by
  simp [Device.storedCell]

/-- What lands changes the array and no more. -/
theorem Device.lands_keep (ps : List Pending) (dv : Device) :
    (ps.foldl Device.land dv).law = dv.law ∧ (ps.foldl Device.land dv).rbase = dv.rbase ∧
      (ps.foldl Device.land dv).arr = ps.foldl Pending.commit dv.arr := by
  induction ps generalizing dv with
  | nil => exact ⟨rfl, rfl, rfl⟩
  | cons p ps ih => exact ih (dv.land p)

@[simp] theorem Device.settle_law (dv : Device) : dv.settle.law = dv.law := by
  unfold Device.settle
  split
  · exact (Device.lands_keep dv.pend dv).1
  · rfl

@[simp] theorem Device.settle_rbase (dv : Device) : dv.settle.rbase = dv.rbase := by
  unfold Device.settle
  split
  · exact (Device.lands_keep dv.pend dv).2.1
  · rfl

@[simp] theorem Device.commit_law (dv : Device) : dv.commit.law = dv.law := by
  simp [Device.commit]

@[simp] theorem Device.commit_rbase (dv : Device) : dv.commit.rbase = dv.rbase := by
  simp [Device.commit]

/-! ## A write at which `RESP` stops -/

@[simp] theorem Device.stray_law (aw : Nat) (dv : Device) (a : Nat) (v : Cell) : (dv.stray aw a v).law = dv.law := by
  unfold Device.stray
  dsimp only
  split <;> rfl

@[simp] theorem Device.stray_rbase (aw : Nat) (dv : Device) (a : Nat) (v : Cell) :
    (dv.stray aw a v).rbase = dv.rbase := by
  unfold Device.stray
  dsimp only
  split <;> rfl

@[simp] theorem Device.stray_mode (aw : Nat) (dv : Device) (a : Nat) (v : Cell) : (dv.stray aw a v).mode = .astray := by
  unfold Device.stray
  dsimp only
  split <;> rfl

/-- A line of R332 keeps the law and the base. -/
theorem Device.respWrite_keeps {aw : Nat} {dv t : Device} {a : Nat} {v : Cell}
    (h : dv.respWrite aw a v = some t) : t.law = dv.law ∧ t.rbase = dv.rbase := by
  unfold Device.respWrite Device.unlockFrom Device.command at h
  cases hm : dv.mode <;> simp only [hm] at h
  all_goals repeat' split at h
  all_goals first
    | simp only [reduceCtorEq] at h
    | (simp only [Option.some.injEq] at h; subst h; simp)

/-! ## Offsets -/

/-- The offset of `RBASE + o` is `o`. -/
theorem Device.offset_addAW {aw o : Nat} (dv : Device) (h : o < 2 ^ aw) : dv.offset aw (addAW aw dv.rbase o) = o := by
  have hl := Nat.mod_lt dv.rbase (Nat.two_pow_pos aw)
  have hd := Nat.mod_add_div dv.rbase (2 ^ aw)
  have he : dv.rbase + o + (2 ^ aw - dv.rbase % 2 ^ aw) = o + 2 ^ aw * (dv.rbase / 2 ^ aw + 1) := by
    rw [Nat.mul_add]
    omega
  rw [Device.offset, addAW, Nat.mod_add_mod, he, Nat.add_mul_mod_self_left, Nat.mod_eq_of_lt h]

/-- The offset of `RBASE` is 0. -/
@[simp] theorem Device.offset_rbase (aw : Nat) (dv : Device) : dv.offset aw dv.rbase = 0 := by
  have hl := Nat.mod_lt dv.rbase (Nat.two_pow_pos aw)
  have hd := Nat.mod_add_div dv.rbase (2 ^ aw)
  have he : dv.rbase + (2 ^ aw - dv.rbase % 2 ^ aw) = 2 ^ aw * (dv.rbase / 2 ^ aw + 1) := by
    rw [Nat.mul_add]
    omega
  rw [Device.offset, he, Nat.mul_mod_right]

/-! ## A bus write -/

/-- Everything a bus write can do to a responder: the reset heard in full, a line of R332, or a write at which `RESP`
stops. -/
theorem Device.write_cases {aw : Nat} {dv : Device} (hl : dv.law = .responder) (a : Nat) (v : Cell) :
    (dv.heard = .both ∧ dv.isReset aw a v = true ∧ dv.write aw a v = dv.reset.hearing .nothing) ∨
    (∃ t, dv.respWrite aw a v = some t ∧ dv.write aw a v = t.hearing (dv.hear aw a v)) ∨
    (dv.respWrite aw a v = none ∧ dv.write aw a v = (dv.stray aw a v).hearing (dv.hear aw a v)) := by
  unfold Device.write
  rw [hl]
  by_cases hr : dv.heard = .both ∧ dv.isReset aw a v = true
  · exact .inl ⟨hr.1, hr.2, if_pos hr⟩
  · right
    simp only [if_neg hr]
    cases hw : dv.respWrite aw a v with
    | none => exact .inr ⟨rfl, rfl⟩
    | some t => exact .inl ⟨t, rfl, rfl⟩

/-- An oracle keeps no state of its own. -/
theorem Device.write_oracle {aw : Nat} {dv : Device} (hl : dv.law = .oracle) (a : Nat) (v : Cell) :
    dv.write aw a v = dv := by
  unfold Device.write
  rw [hl]

/-- A bus write keeps the law and the base. -/
theorem Device.write_keeps (aw : Nat) (dv : Device) (a : Nat) (v : Cell) :
    (dv.write aw a v).law = dv.law ∧ (dv.write aw a v).rbase = dv.rbase := by
  cases hl : dv.law with
  | oracle => rw [Device.write_oracle hl]; exact ⟨hl, rfl⟩
  | responder =>
    rcases Device.write_cases hl a v with ⟨-, -, e⟩ | ⟨t, ht, e⟩ | ⟨-, e⟩ <;> rw [e]
    · exact ⟨hl, rfl⟩
    · have h := Device.respWrite_keeps ht
      exact ⟨h.1.trans hl, h.2⟩
    · simp [hl]

/-! ## The array stays canonical -/

theorem Device.wf_settle {dv : Device} (h : Memory.wf dv.arr) : Memory.wf dv.settle.arr := by
  unfold Device.settle
  split
  · show Memory.wf (dv.pend.foldl Device.land dv).arr
    rw [(Device.lands_keep dv.pend dv).2.2]
    exact Pending.wf_commits _ h
  · exact h

theorem Device.wf_commit {dv : Device} (h : Memory.wf dv.arr) : Memory.wf dv.commit.arr :=
  Device.wf_settle (dv := { dv with busy := dv.busyReads, mode := .array }) h

theorem Device.wf_respWrite {aw : Nat} {dv dv' : Device} {a : Nat} {v : Cell} (h : Memory.wf dv.arr)
    (hw : dv.respWrite aw a v = some dv') : Memory.wf dv'.arr := by
  unfold Device.respWrite Device.unlockFrom Device.command at hw
  cases hm : dv.mode <;> simp only [hm] at hw
  all_goals repeat' split at hw
  all_goals first
    | simp only [reduceCtorEq] at hw
    | (simp only [Option.some.injEq] at hw; subst hw; first | exact h | exact Device.wf_commit h)

/-- A write at which `RESP` stops keeps the array, or forgets it. -/
theorem Device.stray_arr (aw : Nat) (dv : Device) (a : Nat) (v : Cell) :
    (dv.stray aw a v).arr = dv.arr ∨ (dv.stray aw a v).arr = [] := by
  unfold Device.stray
  split
  · exact .inl rfl
  · exact .inr rfl

/-- A bus write keeps the device's array canonical. -/
theorem Device.wf_write {aw : Nat} {dv : Device} (a : Nat) (v : Cell) (h : Memory.wf dv.arr) :
    Memory.wf (dv.write aw a v).arr := by
  cases hl : dv.law with
  | oracle => rw [Device.write_oracle hl]; exact h
  | responder =>
    rcases Device.write_cases hl a v with ⟨-, -, e⟩ | ⟨t, ht, e⟩ | ⟨-, e⟩ <;> rw [e]
    · exact h
    · have ht' := Device.wf_respWrite h ht
      exact ht'
    · show Memory.wf (dv.stray aw a v).arr
      rcases Device.stray_arr aw dv a v with ha | ha <;> rw [ha]
      · exact h
      · exact ⟨List.Pairwise.nil, fun c hc => nomatch hc⟩

/-- A bus read keeps the device's array canonical. -/
theorem Device.wf_afterRead {dv : Device} (h : Memory.wf dv.arr) : Memory.wf dv.afterRead.arr := by
  unfold Device.afterRead
  split
  · exact h
  · split
    · exact h
    · exact Device.wf_settle (dv := { dv with busy := dv.busy.pred }) h

end Sys2Proof.Machine
end

