-- ==== Sys2Proof/Laws/Encoding.lean ====
section
/-! SUPPORT. The packed request word (30_encoding.md R100): each field reads back what was packed, and packing the fields
of a word gives the word less its ignored bits. -/

namespace Sys2Proof

/-- The fields of a decoded word have their widths. -/
theorem fieldsOf_fits (aw w : Nat) : (fieldsOf aw w).fits aw = true := by
  simp [fieldsOf, Fields.fits, Nat.mod_lt _ (Nat.two_pow_pos aw)]

@[simp] theorem opOf_packRequest (aw : Nat) (op : BitVec 8) (f : Fields) : opOf (packRequest aw op f) = op := by
  apply BitVec.eq_of_toNat_eq
  have := op.isLt
  simp only [opOf, packRequest, BitVec.toNat_ofNat]
  omega

/-- The nested sum, taken apart from the top down. -/
theorem div_pow_split {x n y : Nat} (k : Nat) (h : x < 2 ^ n) : (x + 2 ^ n * y) / 2 ^ (n + k) = y / 2 ^ k := by
  rw [Nat.pow_add, ← Nat.div_div_eq_div_mul, Nat.add_mul_div_left _ _ (Nat.two_pow_pos n), Nat.div_eq_of_lt h,
    Nat.zero_add]

theorem mod_pow_split {x n y : Nat} (h : x < 2 ^ n) : (x + 2 ^ n * y) % 2 ^ n = x := by
  rw [Nat.add_mul_mod_self_left, Nat.mod_eq_of_lt h]

theorem fieldsOf_packRequest {aw : Nat} (op : BitVec 8) {f : Fields} (hf : f.fits aw = true) :
    fieldsOf aw (packRequest aw op f) = f := by
  obtain ⟨k, a, b, d⟩ := f
  simp only [Fields.fits, Bool.and_eq_true, decide_eq_true_eq] at hf
  obtain ⟨ha, hb⟩ := hf
  have hop : op.toNat < 2 ^ 8 := op.isLt
  have hk : k.toNat < 2 ^ 8 := Nat.lt_trans k.isLt (by decide)
  simp only [fieldsOf, packRequest, Fields.mk.injEq]
  rw [show 16 + 2 * aw = 8 + (8 + (aw + (aw + 0))) by omega, show 16 + aw = 8 + (8 + (aw + 0)) by omega,
    show 2 ^ 16 = 2 ^ (8 + (8 + 0)) by rfl]
  refine ⟨?_, ?_, ?_, ?_⟩
  · rw [show 2 ^ 8 = 2 ^ (8 + 0) by rfl, div_pow_split 0 hop]
    apply BitVec.eq_of_toNat_eq
    have := k.isLt
    simp only [BitVec.toNat_ofNat]
    omega
  · rw [div_pow_split _ hop, div_pow_split _ hk]
    simpa using mod_pow_split (y := b + 2 ^ aw * d.toNat) ha
  · rw [div_pow_split _ hop, div_pow_split _ hk, div_pow_split _ ha]
    simpa using mod_pow_split (y := d.toNat) hb
  · rw [div_pow_split _ hop, div_pow_split _ hk, div_pow_split _ ha, div_pow_split _ hb]
    simp

/-- Packing the fields of a word of 16+2*AW+16 bits gives the word less its ignored bits 15:10 (R109). -/
theorem packRequest_opOf_fieldsOf {aw w : Nat} (hw : w < 2 ^ (32 + 2 * aw)) :
    packRequest aw (opOf w) (fieldsOf aw w) = w % 2 ^ 10 + 2 ^ 16 * (w / 2 ^ 16) := by
  have hd : w / 2 ^ (16 + 2 * aw) < 2 ^ 16 := by
    rw [Nat.div_lt_iff_lt_mul (Nat.two_pow_pos _), ← Nat.pow_add]
    exact lt_of_lt_of_eq hw (by congr 1; omega)
  have h1 : w / 2 ^ (16 + aw) = w / 2 ^ 16 / 2 ^ aw := by rw [Nat.pow_add, Nat.div_div_eq_div_mul]
  have h2 : w / 2 ^ (16 + 2 * aw) = w / 2 ^ 16 / 2 ^ aw / 2 ^ aw := by
    rw [show 16 + 2 * aw = 16 + aw + aw by omega, Nat.pow_add, ← Nat.div_div_eq_div_mul, h1]
  simp only [packRequest, fieldsOf, opOf, BitVec.toNat_ofNat, Nat.mod_eq_of_lt hd]
  rw [h1, h2, Nat.mod_add_div, Nat.mod_add_div]
  omega

/-- The decode of a request word depends on its operation code and its fields alone. -/
theorem decode_congr {aw w w' : Nat} (h1 : opOf w = opOf w') (h2 : fieldsOf aw w = fieldsOf aw w') :
    decode aw w = decode aw w' := by
  unfold decode
  rw [h1, h2]

end Sys2Proof
end

