-- ==== Sys2Proof/Laws/Poll.lean ====
section
/-! SUPPORT. The poll loop (42_poll.md R181), said once for its four callers. -/

namespace Sys2Proof.Machine

/-- The state after a poll's reads `vs`, before the poller returns. -/
def State.polled (vs : List Cell) (s : State) : State :=
  { s with
    trace := s.trace ++ vs.map (rd s.ptgt)
    device := s.device.seen s.params.aw (vs.map (rd s.ptgt))
    rdata := vs.getLastD s.rdata
    pollCnt := s.pollCnt + BitVec.ofNat 32 vs.length }

theorem PollEnds.cons {n : Nat} {e v : Cell} {vs : List Cell} {ok : Bool} (hv : v ≠ e) (h : PollEnds n e vs ok) :
    PollEnds (n + 1) e (v :: vs) ok := by
  cases h with
  | success bad hb hl =>
    exact .success (v :: bad) (by simpa using ⟨hv, hb⟩) (by simpa using hl)
  | timeout _ hb hl =>
    exact .timeout (v :: vs) (by simpa using ⟨hv, hb⟩) (by simpa using hl)

/-- One poll read: the value is counted and compared, and the loop goes on, or the poller returns. -/
theorem step_poll {s : State} (hp : s.faultPort = []) (hr : s.resetPort = []) (hf : s.faulted = false)
    (hq : s.seq.isPoll = true) :
    step s = .next (pollAfterRead
      { s with
        trace := s.trace ++ [rd s.ptgt (s.device.answer s.params.aw s.busTrace s.ptgt)]
        device := s.device.afterRead
        rdata := s.device.answer s.params.aw s.busTrace s.ptgt }) := by
  cases h : s.seq <;> simp [h, Seq.isPoll] at hq
  all_goals
    rw [step_quiet hp hr hf (by simp [h]) (by simp [h])]
    simp [State.quietStep, h, State.quietEvent, Seq.cycle, State.comingRead, advance]

/-- From the head of a read with reads left, the loop ends as R181 says, whatever the device answers. -/
theorem run_poll {s : State} (hp : s.faultPort = []) (hr : s.resetPort = []) (hf : s.faulted = false)
    (hq : s.seq.isPoll = true) (hlt : s.pollCnt.toNat < s.params.pollCeiling.toNat) :
    ∃ vs ok, PollEnds (s.params.pollCeiling.toNat - s.pollCnt.toNat) s.expect vs ok ∧
      run vs.length s = .next (pollReturn ok (s.polled vs)) := by
  obtain ⟨n, hn⟩ : ∃ n, s.params.pollCeiling.toNat = s.pollCnt.toNat + (n + 1) :=
    ⟨s.params.pollCeiling.toNat - s.pollCnt.toNat - 1, by omega⟩
  induction n generalizing s with
  | zero =>
    generalize hv : s.device.answer s.params.aw s.busTrace s.ptgt = v
    have hs := step_poll hp hr hf hq
    rw [hv] at hs
    have hc : s.pollCnt + 1#32 = s.params.pollCeiling := by bv_omega
    rw [show s.params.pollCeiling.toNat - s.pollCnt.toNat = 1 by omega]
    by_cases he : v = s.expect
    · refine ⟨[v], true, ?_, ?_⟩
      · subst he; exact .success [] (by simp) (by simp)
      · simp [run, hs, pollAfterRead, State.pollEqual, he, State.polled, Device.seen, rd]
    · refine ⟨[v], false, .timeout [v] (by simpa using he) rfl, ?_⟩
      simp [run, hs, pollAfterRead, State.pollEqual, he, State.polled, Device.seen, rd, pollTest,
        State.pollExhausted, hc]
  | succ n ih =>
    generalize hv : s.device.answer s.params.aw s.busTrace s.ptgt = v
    have hs := step_poll hp hr hf hq
    rw [hv] at hs
    have hc : s.pollCnt + 1#32 ≠ s.params.pollCeiling := by bv_omega
    have h1 : (s.pollCnt + 1#32).toNat = s.pollCnt.toNat + 1 := by bv_omega
    by_cases he : v = s.expect
    · refine ⟨[v], true, ?_, ?_⟩
      · subst he; exact .success [] (by simp) (by simp; omega)
      · simp [run, hs, pollAfterRead, State.pollEqual, he, State.polled, Device.seen, rd]
    · have ha : step s = .next
          { s with
            trace := s.trace ++ [rd s.ptgt v]
            device := s.device.afterRead
            rdata := v
            pollCnt := s.pollCnt + 1#32 } := by
        rw [hs]
        simp [pollAfterRead, State.pollEqual, he, pollTest, State.pollExhausted, hc]
      obtain ⟨vs, ok, hvs, hrun⟩ := ih (s :=
          { s with
            trace := s.trace ++ [rd s.ptgt v]
            device := s.device.afterRead
            rdata := v
            pollCnt := s.pollCnt + 1#32 }) hp hr hf hq (by simp only [h1]; omega) (by simp only [h1]; omega)
      refine ⟨v :: vs, ok, ?_, ?_⟩
      · have := hvs.cons he
        simp only [h1] at this
        rwa [show s.params.pollCeiling.toNat - (s.pollCnt.toNat + 1) + 1 =
          s.params.pollCeiling.toNat - s.pollCnt.toNat by omega] at this
      · rw [List.length_cons, run_succ ha, hrun]
        congr 2
        simp only [State.polled, List.map_cons, Device.seen, rd, List.append_assoc, List.cons_append, List.nil_append,
          List.length_cons, State.mk.injEq, true_and, and_true]
        refine ⟨?_, ?_⟩
        · rw [Nat.add_comm, BitVec.ofNat_add]
          simp [BitVec.add_assoc]
        · cases vs <;> simp [List.getLastD]

/-- A poll from its start, whatever the ceiling: with `POLL_CEILING = 0` it makes no read (R181 (c)). -/
theorem run_pollStart {s : State} (site : Seq) (a : Nat) (v : Cell) (hp : s.faultPort = []) (hr : s.resetPort = [])
    (hf : s.faulted = false) (hq : site.isPoll = true) :
    ∃ vs ok, PollEnds s.params.pollCeiling.toNat v vs ok ∧
      run vs.length (pollStart site a v s) =
        .next (pollReturn ok (State.polled vs { s with ptgt := a, expect := v, pollCnt := 0, seq := site })) := by
  by_cases hc : s.params.pollCeiling = 0
  · refine ⟨[], false, .timeout [] (by simp) (by simp [hc]), ?_⟩
    simp [run, pollStart, pollTest, State.pollExhausted, hc, State.polled, Device.seen]
  · have h0 : 0 < s.params.pollCeiling.toNat := by bv_omega
    obtain ⟨vs, ok, h1, h2⟩ := run_poll (s := { s with ptgt := a, expect := v, pollCnt := 0, seq := site }) hp hr hf
      hq (by simpa using h0)
    refine ⟨vs, ok, by simpa using h1, ?_⟩
    rw [← h2]
    have hc' : ¬(0#32 = s.params.pollCeiling) := fun h => hc h.symm
    simp [pollStart, pollTest, State.pollExhausted, hc']

end Sys2Proof.Machine
end

