-- ==== Sys2Proof/Laws/Pages.lean ====
section
/-! SUPPORT. The word loop and the page of WRITE_BUFFER (44_program_erase.md R260), said once. -/

namespace Sys2Proof.Machine

/-- The byte fetched at an index: the requester's, or the free one. -/
def srcAt (buf : List Byte) (d i : Nat) : Byte :=
  match buf[i]? with
  | some b => b
  | none => Config.freeByte d

theorem srcByte_eq (s : State) (i : Nat) : s.srcByte i = srcAt s.srcBuf s.draws i := rfl

theorem srcAt_known {buf : List Byte} {d i : Nat} {c : Byte} (h : buf[i]? = some c) : srcAt buf d i = c := by
  simp [srcAt, h]

theorem SourceBytes.nil (s : State) (i : Nat) : SourceBytes s i [] := by
  intro k b c h
  simp at h

theorem SourceBytes.cons {s : State} {i : Nat} {b : Byte} {bs : List Byte} (hi : i < 2 ^ (s.params.aw + 1))
    (h1 : ∀ c, s.srcBuf[i]? = some c → b = c) (h2 : SourceBytes s (s.srcIndex i 1) bs) :
    SourceBytes s i (b :: bs) := by
  intro k x c hx hc
  cases k with
  | zero =>
    simp only [State.srcIndex_def, addAW_zero hi] at hc
    simp at hx
    subst hx
    exact h1 c hc
  | succ k =>
    simp at hx
    refine h2 k x c hx ?_
    rw [← hc]
    simp [Nat.add_comm]

/-- One word: two fetches and the data cycle. -/
theorem run_word {s : State} (hp : s.faultPort = []) (hr : s.resetPort = []) (hf : s.faulted = false)
    (hq : s.seq = .wbSrc0) :
    ∃ lo hi d, (∀ c, s.srcBuf[s.sidx]? = some c → lo = c) ∧
      (∀ c, s.srcBuf[s.srcIndex s.sidx 1]? = some c → hi = c) ∧
      run 3 s = .next
        { s with
          seq := if s.wi + 1 = s.bw then .wbConfirm else .wbSrc0
          wi := s.wi + 1
          wdata := joinBytes hi lo
          sidx := s.srcIndex s.sidx 2
          draws := d
          trace := s.trace ++ wordEvents s.params.aw (s.pageWord s.wi) s.sidx [lo, hi]
          device := s.device.seen s.params.aw (wordEvents s.params.aw (s.pageWord s.wi) s.sidx [lo, hi]) } := by
  refine ⟨srcAt s.srcBuf s.draws s.sidx,
    srcAt s.srcBuf (if s.sidx < s.srcBuf.length then s.draws else s.draws + 1) (s.srcIndex s.sidx 1),
    if s.srcIndex s.sidx 1 < s.srcBuf.length then
      (if s.sidx < s.srcBuf.length then s.draws else s.draws + 1)
    else (if s.sidx < s.srcBuf.length then s.draws else s.draws + 1) + 1,
    fun c hc => srcAt_known hc, fun c hc => srcAt_known hc, ?_⟩
  have hl : ∀ x y : Byte, lowByte (x ++ y) = y := lowByte_joinBytes
  simp [run, step_quiet, hp, hr, hf, hq, State.quietStep, State.quietEvent, Seq.cycle, State.comingRead, advance, hl,
    State.fetchSrc, State.goTo, srcByte_eq, wbWordDone, State.beforeCycle, State.cycleAddr, State.cycleValue,
    State.dataAddr, State.dataWord, wordEvents, Device.seen, wr, joinBytes]
  split <;> rfl

/-- The word loop, from its first word left to the confirm position. -/
theorem run_words (k : Nat) : ∀ {s : State}, s.faultPort = [] → s.resetPort = [] → s.faulted = false →
    s.seq = .wbSrc0 → s.sidx < 2 ^ (s.params.aw + 1) → s.bw.toNat = s.wi.toNat + (k + 1) →
    ∃ bs d, bs.length = 2 * (k + 1) ∧ SourceBytes s s.sidx bs ∧
      run (3 * (k + 1)) s = .next
        { s with
          seq := .wbConfirm
          wi := s.bw
          wdata := lastWord bs
          sidx := s.srcIndex s.sidx bs.length
          draws := d
          trace := s.trace ++ wordEvents s.params.aw (s.pageWord s.wi) s.sidx bs
          device := s.device.seen s.params.aw (wordEvents s.params.aw (s.pageWord s.wi) s.sidx bs) } := by
  induction k with
  | zero =>
    intro s hp hr hf hq hi hk
    obtain ⟨lo, hi', d, h1, h2, h3⟩ := run_word hp hr hf hq
    have : s.wi + 1#6 = s.bw := by bv_omega
    refine ⟨[lo, hi'], d, rfl, .cons hi h1 (.cons (addAW_lt _ _ _) h2 (.nil _ _)), ?_⟩
    rw [h3]
    simp [this, lastWord, joinBytes]
  | succ k ih =>
    intro s hp hr hf hq hi hk
    obtain ⟨lo, hi', d, h1, h2, h3⟩ := run_word hp hr hf hq
    have hn : s.wi + 1 ≠ s.bw := by bv_omega
    have h1' : (s.wi + 1).toNat = s.wi.toNat + 1 := by bv_omega
    have hpw : addAW s.params.aw (s.pageWord s.wi) 2 = addAW s.params.aw s.paddr (2 * (s.wi + 1).toNat) := by
      rw [State.pageWord_def, addAW_addAW, h1', Nat.mul_add]
    simp only [hn, if_false] at h3
    generalize hu : State.mk s.base s.baseValid s.op s.kind s.a0 s.a1 s.d s.ptgt s.expect s.pollCnt s.rdata s.paddr
      s.rem s.bw (s.wi + 1) (s.srcIndex s.sidx 2) (joinBytes hi' lo) s.idacc s.qlow s.ridx s.rcell s.pres _ s.status
      s.result s.faulted s.params s.requests s.srcBuf s.faultPort s.resetPort _ _ d = u at h3
    obtain ⟨bs, d', e1, e2, e3⟩ := ih (s := u) (by subst hu; exact hp) (by subst hu; exact hr) (by subst hu; exact hf)
      (by subst hu; rfl) (by subst hu; exact addAW_lt _ _ _) (by subst hu; simp only [h1']; omega)
    refine ⟨lo :: hi' :: bs, d', by simp [e1]; omega, .cons hi h1 (.cons (addAW_lt _ _ _) h2 ?_), ?_⟩
    · have e2' : SourceBytes s (s.srcIndex s.sidx 2) bs := by subst hu; exact e2
      simpa using e2'
    · rw [show 3 * (k + 1 + 1) = 3 + 3 * (k + 1) by omega, run_add h3, e3]
      subst hu
      have hl : lastWord (lo :: hi' :: bs) = lastWord bs := by
        cases bs with
        | nil => simp at e1
        | cons b bs => rfl
      simp only [State.pageWord_def] at hpw ⊢
      rw [← hpw]
      simp [wordEvents, Device.seen, wr, hl, Nat.add_comm]
      congr 1
      omega

/-- One page, from its unlock to the start of its poll. -/
theorem run_page {s : State} (hp : s.faultPort = []) (hr : s.resetPort = []) (hf : s.faulted = false)
    (hq : s.seq = .wbU1) (ha : s.paddr < 2 ^ s.params.aw) (hi : s.sidx < 2 ^ (s.params.aw + 1))
    (h1 : 1 ≤ s.bw.toNat) (h2 : s.bw.toNat ≤ 32) :
    ∃ bs d, bs.length = 2 * s.bw.toNat ∧ SourceBytes s s.sidx bs ∧
      run (5 + 3 * s.bw.toNat) s = .next
        (pollStart .wbPoll (s.plus s.paddr (bs.length - 2)) (lastWord bs)
          { s with
            seq := .wbConfirm
            wi := s.bw
            wdata := lastWord bs
            sidx := s.srcIndex s.sidx bs.length
            draws := d
            trace := s.trace ++ pageEvents s s.paddr s.sidx bs
            device := s.device.seen s.params.aw (pageEvents s s.paddr s.sidx bs) }) := by
  have hcf : BitVec.setWidth 16 (countField s.bw) = BitVec.ofNat 16 (s.bw.toNat - 1) := by
    apply BitVec.eq_of_toNat_eq
    simp [countField_toNat h1 h2]
  obtain ⟨u, hu⟩ : ∃ u, u =
      { s with
        seq := .wbSrc0
        wi := 0
        trace := s.trace ++ (unlockEvents s.params.aw (s.pageOrigin s.paddr) ++
          [wr s.paddr 0x0025, wr s.paddr (BitVec.ofNat 16 (s.bw.toNat - 1))])
        device := s.device.seen s.params.aw (unlockEvents s.params.aw (s.pageOrigin s.paddr) ++
          [wr s.paddr 0x0025, wr s.paddr (BitVec.ofNat 16 (s.bw.toNat - 1))]) } := ⟨_, rfl⟩
  have h4 : run 4 s = .next u := by
    subst hu
    simp [run, step_quiet, hp, hr, hf, hq, State.quietStep, State.quietEvent, Seq.cycle, advance, State.goTo,
      State.beforeCycle, State.cycleAddr, State.cycleValue, State.unlockOrigin, wbOrigin_eq, Device.seen,
      unlockEvents, wr, Config.unlock1Offset, Config.unlock2Offset, Config.unlock1Value,
      Config.unlock2Value, Config.wbLoadValue, hcf]
    exact ⟨rfl, rfl⟩
  obtain ⟨bs, d, e1, e2, e3⟩ := run_words (s.bw.toNat - 1) (s := u) (by subst hu; exact hp) (by subst hu; exact hr)
    (by subst hu; exact hf) (by subst hu; rfl) (by subst hu; exact hi) (by subst hu; simp; omega)
  have hbl : bs.length = 2 * s.bw.toNat := by omega
  refine ⟨bs, d, hbl, by subst hu; exact e2, ?_⟩
  rw [show s.bw.toNat - 1 + 1 = s.bw.toNat by omega] at e3
  rw [show 5 + 3 * s.bw.toNat = 4 + (3 * s.bw.toNat + 1) by omega, run_add h4, run_add e3]
  have hbw : (s.bw - 1#6).toNat = s.bw.toNat - 1 := by bv_omega
  have hpw0 : u.pageWord u.wi = s.paddr := by
    subst hu
    exact addAW_zero ha
  simp only [hpw0]
  subst hu
  simp [run, step_quiet, hp, hr, hf, State.quietStep, State.quietEvent, Seq.cycle, advance, State.beforeCycle,
    State.cycleAddr, State.cycleValue, pageEvents, Device.seen_append, hbl, Device.seen, wr, Config.wbConfirmValue,
    hbw, Nat.mul_sub]

end Sys2Proof.Machine
end

