-- ==== Sys2Proof/Laws/PerInstr.lean ====
section
/-! SUPPORT. Facts about each instruction as syntax, one lemma a constructor. `Format`: a row of format REQ encodes as a
request word that carries its own operation code, a row of format CYCLE as a bus value. -/

namespace Sys2Proof.Laws.Format

/-- At every address width that holds the operands: a request encodes as a word that decodes to it, with its own format;
a command cycle encodes as a bus value, and is well formed. -/
def Statement (i : Instr) : Prop :=
  ∀ aw : Nat, i.fits aw = true →
    match encode aw i with
    | .request w => i.isRequest = true ∧ (decode aw w).toOption.map Instr.isRequest = some true
    | .cycle _ _ => i.isRequest = false ∧ i.wellFormed aw = true

/-- A packed word whose code is in the table decodes to a request. -/
theorem decode_isRequest {aw : Nat} {op : BitVec 8} {f : Fields} {i : Instr}
    (h : decode aw (packRequest aw op f) = .ok i) (hr : i.isRequest = true) :
    (decode aw (packRequest aw op f)).toOption.map Instr.isRequest = some true := by
  rw [h]
  simp [Decoded.toOption, hr]

theorem init (f : Fields) : Statement (.init f) := by
  intro aw hf
  refine ⟨rfl, decode_isRequest (i := .init f) ?_ rfl⟩
  simp [decode, Opcode.init, fieldsOf_packRequest _ hf]

theorem write16 (f : Fields) : Statement (.write16 f) := by
  intro aw hf
  refine ⟨rfl, decode_isRequest (i := .write16 f) ?_ rfl⟩
  simp [decode, Opcode.write16, fieldsOf_packRequest _ hf]

theorem read16 (f : Fields) : Statement (.read16 f) := by
  intro aw hf
  refine ⟨rfl, decode_isRequest (i := .read16 f) ?_ rfl⟩
  simp [decode, Opcode.read16, fieldsOf_packRequest _ hf]

theorem unlock (f : Fields) : Statement (.unlock f) := by
  intro aw hf
  refine ⟨rfl, decode_isRequest (i := .unlock f) ?_ rfl⟩
  simp [decode, Opcode.unlock, fieldsOf_packRequest _ hf]

theorem reset (f : Fields) : Statement (.reset f) := by
  intro aw hf
  refine ⟨rfl, decode_isRequest (i := .reset f) ?_ rfl⟩
  simp [decode, Opcode.reset, fieldsOf_packRequest _ hf]

theorem poll (f : Fields) : Statement (.poll f) := by
  intro aw hf
  refine ⟨rfl, decode_isRequest (i := .poll f) ?_ rfl⟩
  simp [decode, Opcode.poll, fieldsOf_packRequest _ hf]

theorem getManufacturerId (f : Fields) : Statement (.getManufacturerId f) := by
  intro aw hf
  refine ⟨rfl, decode_isRequest (i := .getManufacturerId f) ?_ rfl⟩
  simp [decode, Opcode.getManufacturerId, fieldsOf_packRequest _ hf]

theorem getDeviceId (f : Fields) : Statement (.getDeviceId f) := by
  intro aw hf
  refine ⟨rfl, decode_isRequest (i := .getDeviceId f) ?_ rfl⟩
  simp [decode, Opcode.getDeviceId, fieldsOf_packRequest _ hf]

theorem readQueryField (f : Fields) : Statement (.readQueryField f) := by
  intro aw hf
  refine ⟨rfl, decode_isRequest (i := .readQueryField f) ?_ rfl⟩
  simp [decode, Opcode.readQueryField, fieldsOf_packRequest _ hf]

theorem getBlockSize (f : Fields) : Statement (.getBlockSize f) := by
  intro aw hf
  refine ⟨rfl, decode_isRequest (i := .getBlockSize f) ?_ rfl⟩
  simp [decode, Opcode.getBlockSize, fieldsOf_packRequest _ hf]

theorem query (f : Fields) : Statement (.query f) := by
  intro aw hf
  refine ⟨rfl, decode_isRequest (i := .query f) ?_ rfl⟩
  simp [decode, Opcode.query, fieldsOf_packRequest _ hf]

theorem wordProgram (f : Fields) : Statement (.wordProgram f) := by
  intro aw hf
  refine ⟨rfl, decode_isRequest (i := .wordProgram f) ?_ rfl⟩
  simp [decode, Opcode.wordProgram, fieldsOf_packRequest _ hf]

theorem eraseBlock (f : Fields) : Statement (.eraseBlock f) := by
  intro aw hf
  refine ⟨rfl, decode_isRequest (i := .eraseBlock f) ?_ rfl⟩
  simp [decode, Opcode.eraseBlock, fieldsOf_packRequest _ hf]

theorem writeBuffer (f : Fields) : Statement (.writeBuffer f) := by
  intro aw hf
  refine ⟨rfl, decode_isRequest (i := .writeBuffer f) ?_ rfl⟩
  simp [decode, Opcode.writeBuffer, fieldsOf_packRequest _ hf]

theorem readBuffer (f : Fields) : Statement (.readBuffer f) := by
  intro aw hf
  refine ⟨rfl, decode_isRequest (i := .readBuffer f) ?_ rfl⟩
  simp [decode, Opcode.readBuffer, fieldsOf_packRequest _ hf]

theorem cycUnlock1 : Statement (.cycUnlock1) := fun _ _ => ⟨rfl, rfl⟩
theorem cycUnlock2 : Statement (.cycUnlock2) := fun _ _ => ⟨rfl, rfl⟩
theorem cycReset : Statement (.cycReset) := fun _ _ => ⟨rfl, rfl⟩
theorem cycIdEntry : Statement (.cycIdEntry) := fun _ _ => ⟨rfl, rfl⟩
theorem cycCfiEntry : Statement (.cycCfiEntry) := fun _ _ => ⟨rfl, rfl⟩
theorem cycWordPgm : Statement (.cycWordPgm) := fun _ _ => ⟨rfl, rfl⟩
theorem cycEraseSetup : Statement (.cycEraseSetup) := fun _ _ => ⟨rfl, rfl⟩
theorem cycEraseConfirm : Statement (.cycEraseConfirm) := fun _ _ => ⟨rfl, rfl⟩
theorem cycWbLoad : Statement (.cycWbLoad) := fun _ _ => ⟨rfl, rfl⟩
theorem cycWbCount (n : BitVec 5) : Statement (.cycWbCount n) := fun _ _ => ⟨rfl, rfl⟩
theorem cycWbConfirm : Statement (.cycWbConfirm) := fun _ _ => ⟨rfl, rfl⟩
theorem cycData (v : Cell) : Statement (.cycData v) := fun _ _ => ⟨rfl, rfl⟩

end Sys2Proof.Laws.Format
end

