-- ==== Sys2Proof/Tests/Slice0.lean ====
section
/-! SUPPORT. The model's own tests. Expected values come from spec/: the encodings of 30_encoding.md, the positions of
10_state.md R30 and the vectors of 95_test_vectors.md, named beside each. Then, for every statement with hypotheses, a
witness that meets them. -/

namespace Sys2Proof.Tests

open Sys2Proof Sys2Proof.Machine

/-! ## Small states -/

/-- After reset and `INIT 0x10000000` (the common setup of the vectors). -/
def ready : State := { State.reset with base := 0x10000000, baseValid := true }

/-- The block at a position of SEQ. -/
def inSeq (q : Seq) : State := { ready with seq := q }

/-- Operands without a kind. -/
def ops (a0 a1 : Nat) (d : Cell) : Fields := ⟨0, a0, a1, d⟩

/-- A state with one request offered, without source bytes. -/
def offering (word : Nat) (s : State) : State := { s with requests := [⟨word, []⟩] }

/-- A state whose device gives these answers first. -/
def answering (vs : List Cell) (s : State) : State := { s with device := { s.device with script := vs } }

/-- The reference responder with an erased array. -/
def responder : Device := { Device.unknown with law := .responder }

/-- The next state, if there is one. -/
def after : Result → Option State
  | .next s => some s
  | .fault _ => none
  | .refused _ => none

/-- The last event of the next state. -/
def event (r : Result) : Option Event := (after r).bind fun t => t.trace.getLast?

/-- Where SEQ stands in the next state. -/
def seqAfter (r : Result) : Option Seq := (after r).map fun t => t.seq

/-! ## Ill-formed instructions are refused (20_memory.md R68; 30_encoding.md R108 (2), (4)) -/

theorem test_illFormed_init : encodeWellFormed 32 (.init (ops 0x10001 0 0)) = none := by decide

theorem test_illFormed_write16 : encodeWellFormed 32 (.write16 (ops 0x10001 0 0)) = none := by decide

theorem test_illFormed_read16 : encodeWellFormed 32 (.read16 (ops 0x10001 0 0)) = none := by decide

theorem test_illFormed_poll : encodeWellFormed 32 (.poll (ops 0x10001 0 0)) = none := by decide

theorem test_illFormed_readQueryField : encodeWellFormed 32 (.readQueryField (ops 0x10001 0 0)) = none := by decide

theorem test_illFormed_wordProgram : encodeWellFormed 32 (.wordProgram (ops 0x10001 0 0)) = none := by decide

theorem test_illFormed_eraseBlock : encodeWellFormed 32 (.eraseBlock (ops 0x10001 0 0)) = none := by decide

theorem test_illFormed_writeBuffer : encodeWellFormed 32 (.writeBuffer (ops 0x10001 0 0)) = none := by decide

theorem test_illFormed_getBlockSize_low : encodeWellFormed 32 (.getBlockSize (ops 0x5F 0x60 0)) = none := by decide

/-- An operand wider than AW bits (R100). -/
theorem test_illFormed_width : encodeWellFormed 32 (.readBuffer (ops 0x100000000 0 0)) = none ∧
    encodeWellFormed 24 (.query (ops 0 0x1000000 0)) = none := by decide

theorem test_illFormed_getBlockSize_high : encodeWellFormed 32 (.getBlockSize (ops 0x5E 0x61 0)) = none := by decide

/-- READ_BUFFER takes any parity (R69), QUERY's key and WRITE_BUFFER's length are no addresses. -/
theorem test_wellFormed_odd_readBuffer_query_length :
    (Instr.readBuffer (ops 0x10001 3 0)).wellFormed 32 = true ∧ (Instr.query (ops 1 0 0)).wellFormed 32 = true ∧
      (Instr.writeBuffer (ops 0x10000 1 0)).wellFormed 32 = true := by decide

/-! ## Decoding, by words written out from R100 and R111 -/

theorem test_decode_init : decode 32 0x000000000000100000000001 =
    .ok (.init ⟨0, 0x10000000, 0x00000000, 0x0000⟩) := by decide

theorem test_decode_write16 : decode 32 0x00AA0000000010000AAA0002 =
    .ok (.write16 ⟨0, 0x10000AAA, 0x00000000, 0x00AA⟩) := by decide

theorem test_decode_read16 : decode 32 0x000000000000100100000003 =
    .ok (.read16 ⟨0, 0x10010000, 0x00000000, 0x0000⟩) := by decide

theorem test_decode_unlock : decode 32 0x000000000000000000000004 =
    .ok (.unlock ⟨0, 0x00000000, 0x00000000, 0x0000⟩) := by decide

theorem test_decode_reset : decode 32 0x000000000000000000000005 =
    .ok (.reset ⟨0, 0x00000000, 0x00000000, 0x0000⟩) := by decide

theorem test_decode_getManufacturerId : decode 32 0x000000000000000000000010 =
    .ok (.getManufacturerId ⟨0, 0x00000000, 0x00000000, 0x0000⟩) := by decide

theorem test_decode_getDeviceId : decode 32 0x000000000000000000000011 =
    .ok (.getDeviceId ⟨0, 0x00000000, 0x00000000, 0x0000⟩) := by decide

theorem test_decode_readQueryField : decode 32 0x0000000000000000004E0012 =
    .ok (.readQueryField ⟨0, 0x0000004E, 0x00000000, 0x0000⟩) := by decide

theorem test_decode_getBlockSize : decode 32 0x0000000000600000005E0013 =
    .ok (.getBlockSize ⟨0, 0x0000005E, 0x00000060, 0x0000⟩) := by decide

theorem test_decode_query : decode 32 0x000000000000000000040014 =
    .ok (.query ⟨0, 0x00000004, 0x00000000, 0x0000⟩) := by decide

theorem test_decode_wordProgram : decode 32 0x123400000000000100000020 =
    .ok (.wordProgram ⟨0, 0x00010000, 0x00000000, 0x1234⟩) := by decide

theorem test_decode_eraseBlock : decode 32 0x000000000000000100000021 =
    .ok (.eraseBlock ⟨0, 0x00010000, 0x00000000, 0x0000⟩) := by decide

theorem test_decode_writeBuffer : decode 32 0x000000000008000100000022 =
    .ok (.writeBuffer ⟨0, 0x00010000, 0x00000008, 0x0000⟩) := by decide

theorem test_decode_readBuffer : decode 32 0x000000000008000100000023 =
    .ok (.readBuffer ⟨0, 0x00010000, 0x00000008, 0x0000⟩) := by decide

/-- V30-3: the kind is bits 9:8 (log 10). -/
theorem test_decode_poll : decode 32 0xFFFF00000000100100000206 =
    .ok (.poll ⟨2, 0x10010000, 0, 0xFFFF⟩) := by decide

/-- V30-6 and R109. -/
theorem test_decode_illegal : decode 32 0x00 = .reject (.illegalOpcode 0x00) ∧
    decode 32 0x07 = .reject (.illegalOpcode 0x07) ∧ decode 32 0x0F = .reject (.illegalOpcode 0x0F) ∧
    decode 32 0x15 = .reject (.illegalOpcode 0x15) ∧ decode 32 0x24 = .reject (.illegalOpcode 0x24) ∧
    decode 32 0xFF = .reject (.illegalOpcode 0xFF) := by decide

theorem test_decode_cycUnlock1 : decodeCycle .command 0x00AA = .ok .cycUnlock1 := by decide

theorem test_decode_cycUnlock2 : decodeCycle .command 0x0055 = .ok .cycUnlock2 := by decide

theorem test_decode_cycReset : decodeCycle .command 0x00F0 = .ok .cycReset := by decide

theorem test_decode_cycIdEntry : decodeCycle .command 0x0090 = .ok .cycIdEntry := by decide

theorem test_decode_cycCfiEntry : decodeCycle .command 0x0098 = .ok .cycCfiEntry := by decide

theorem test_decode_cycWordPgm : decodeCycle .command 0x00A0 = .ok .cycWordPgm := by decide

theorem test_decode_cycEraseSetup : decodeCycle .command 0x0080 = .ok .cycEraseSetup := by decide

theorem test_decode_cycEraseConfirm : decodeCycle .command 0x0030 = .ok .cycEraseConfirm := by decide

theorem test_decode_cycWbLoad : decodeCycle .command 0x0025 = .ok .cycWbLoad := by decide

theorem test_decode_cycWbConfirm : decodeCycle .command 0x0029 = .ok .cycWbConfirm := by decide

theorem test_decode_cycWbCount : decodeCycle .count 0x0000 = .ok (.cycWbCount 0) ∧
    decodeCycle .count 0x001F = .ok (.cycWbCount 31) ∧ decodeCycle .count 0x0020 = .reject (.countOutOfRange 0x20) := by
  decide

/-- A data word is known by its place, whatever its value. -/
theorem test_decode_cycData : decodeCycle .data 0x00AA = .ok (.cycData 0x00AA) ∧
    decodeCycle .data 0xA55A = .ok (.cycData 0xA55A) ∧ decodeCycle .command 0xA55A = .reject (.notACommand 0xA55A) := by
  decide

/-- The table's numbering: the operation code is bits 7:0, a 16-bit word is a cycle (log 11). -/
theorem test_decodeTableWord : decodeTableWord 8 0x22 = some (.writeBuffer (ops 0 0 0)) ∧
    decodeTableWord 16 0xF0 = some .cycReset ∧ decodeTableWord 16 0x1F = some (.cycWbCount 31) ∧
    decodeTableWord 0 0 = some (.cycData 0) ∧ decodeTableWord 8 0x07 = none := by decide

/-! ## Reset -/

theorem test_reset_memory_wf : Memory.wf State.reset.device.arr := by decide

/-- 10_state.md R40. -/
theorem test_reset_values : State.reset.seq = .idle ∧ State.reset.baseValid = false ∧ State.reset.faulted = false ∧
    State.reset.status.code = 0 := by decide

/-! ## Requests: the acceptance step -/

/-- V40-1, first step: BASE is written. -/
theorem test_init :
    (after (exec (.init (ops 0x10000000 0 0)) State.reset)).map (fun t => (t.base, t.baseValid, t.seq)) =
      some (0x10000000, true, .respond .success 0) := by decide

/-- V40-3: the second INIT. -/
theorem test_init_twice : (after (exec (.init (ops 0x20000000 0 0)) ready)).map (fun t => (t.base, t.seq)) =
    some (0x10000000, .respond .illegalRequest 0) := by decide

/-- V40-5: legal before INIT. -/
theorem test_write16 : seqAfter (exec (.write16 (ops 0x10000AAA 0 0xAA)) State.reset) = some .wrCyc := by decide

/-- V40-5: the write itself. -/
theorem test_write16_cycle : event (step { inSeq .wrCyc with a0 := 0x10000AAA, d := 0xAA }) =
    some (.bus (.w 0x10000AAA 0x00AA)) := by decide

theorem test_read16 : seqAfter (exec (.read16 (ops 0x10010000 0 0)) State.reset) = some .rdCyc := by decide

/-- V40-7. -/
theorem test_read16_cycle :
    (after (step (answering [0xBEEF] { inSeq .rdCyc with a0 := 0x10010000 }))).map (fun t => (t.trace, t.seq)) =
      some ([.bus (.r 0x10010000 0xBEEF)], .respond .success 0xBEEF) := by decide

/-- V40-4. -/
theorem test_reset_before_init : seqAfter (exec (.reset (ops 0 0 0)) State.reset) =
    some (.respond .illegalRequest 0) := by decide

theorem test_unlock : seqAfter (exec (.unlock (ops 0 0 0)) ready) = some .unlU1 := by decide

theorem test_reset : seqAfter (exec (.reset (ops 0 0 0)) ready) = some (.rst .u1) := by decide

theorem test_poll : (after (exec (.poll (ops 0x10010000 0 0xFFFF)) ready)).map (fun t => (t.seq, t.ptgt, t.expect)) =
    some (.pollRd, 0x10010000, 0xFFFF) := by decide

/-- V42-4: a ceiling of 0 makes no read. -/
theorem test_poll_zero : seqAfter (exec (.poll (ops 0x10010000 0 0xFFFF))
    { ready with params := { ready.params with pollCeiling := 0 } }) = some (.respond .timeout 0) := by decide

/-- V42-5, last read: equal on the last permitted read. -/
theorem test_poll_last_read :
    (after (step (answering [0xFFFF]
      { inSeq .pollRd with
        ptgt := 0x10010000, expect := 0xFFFF, pollCnt := 1
        params := { ready.params with pollCeiling := 2 } }))).map (fun t => (t.seq, t.pollCnt, t.pres)) =
      some (.respond .success 0, 2, true) := by decide

theorem test_getManufacturerId : seqAfter (exec (.getManufacturerId (ops 0 0 0)) ready) = some .midU1 := by decide

theorem test_getDeviceId : seqAfter (exec (.getDeviceId (ops 0 0 0)) ready) = some .didU1 := by decide

/-- V43-4: the high byte is not the sentinel. -/
theorem test_getDeviceId_highByte :
    (after (step (answering [0x7E00] (inSeq .didRead)))).map (fun t => (t.seq, t.idacc, t.trace)) =
      some (.didRst .u1, 0x00, [.bus (.r 0x10000002 0x7E00)]) := by decide

/-- V43-3, last identifier read. -/
theorem test_getDeviceId_third :
    (after (step (answering [0x2201] { inSeq .didExt2 with idacc := 0x00287E }))).map (fun t => (t.idacc, t.trace)) =
      some (0x01287E, [.bus (.r 0x1000001E 0x2201)]) := by decide

theorem test_readQueryField : seqAfter (exec (.readQueryField (ops 0x4E 0 0)) ready) = some (.rqf .u1) := by decide

/-- V43-7: no trailing reset. -/
theorem test_readQueryField_noReset :
    seqAfter (step (answering [0x0019]
      { inSeq (.rqf .read) with a0 := 0x4E, params := { ready.params with trailingResetUnlisted := false } })) =
      some (.respond .success 0x19) := by decide

/-- V43-11. -/
theorem test_getBlockSize_odd : seqAfter (exec (.getBlockSize (ops 0x5E 0x61 0)) ready) =
    some (.respond .illegalRequest 0) := by decide

/-- V43-10: no overflow. -/
theorem test_getBlockSize_result :
    seqAfter (step { inSeq (.gbsHigh (.rst .f0)) with qlow := 0xFFFF, rdata := 0xFFFF }) =
    some (.respond .success 0x100FEFF00) := by decide

/-- V43-12. -/
theorem test_query_flashBase : seqAfter (exec (.query (ops 0 0 0)) ready) = some (.respond .success 0x10000000) := by
  decide

/-- V43-14. -/
theorem test_query_unsupported : seqAfter (exec (.query (ops 5 0 0)) ready) = some (.respond .unsupportedQuery 0) ∧
    seqAfter (exec (.query (ops 0xFFFFFFFF 0 0)) ready) = some (.respond .unsupportedQuery 0) := by decide

theorem test_wordProgram : seqAfter (exec (.wordProgram (ops 0x10000 0 0x1234)) ready) = some .wpU1 := by decide

theorem test_eraseBlock : seqAfter (exec (.eraseBlock (ops 0x10000 0 0)) ready) = some (.erRst0 .u1) := by decide

/-- V44-10. -/
theorem test_eraseBlock_odd : seqAfter (exec (.eraseBlock (ops 0x10001 0 0)) ready) =
    some (.respond .illegalRequest 0) := by decide

/-- V44-8: 130 bytes are 65 words, the first page holds 32. -/
theorem test_writeBuffer : (after (exec (.writeBuffer (ops 0x20000 130 0)) ready)).map
    (fun t => (t.seq, t.rem, t.bw, t.paddr)) = some (.wbU1, 65, 32, 0x10020000) := by decide

/-- The longest length: `len + 1` does not wrap (R262). -/
theorem test_writeBuffer_longest : (after (exec (.writeBuffer (ops 0x20000 0xFFFFFFFF 0)) ready)).map (fun t => t.rem) =
    some 0x80000000 := by decide

theorem test_readBuffer : seqAfter (exec (.readBuffer (ops 0x10001 2 0)) ready) = some .rbCell := by decide

/-- V45-5: bits 15:8 of the cell. -/
theorem test_readBuffer_highByte : event (step { inSeq .rbOut with a0 := 0x10003, a1 := 1, rdata := 0x2211 }) =
    some (.host (.dst 0 0x22)) := by decide

/-- R109: accepted, answered `ILLEGAL_REQUEST`. -/
theorem test_illegal_opcode : seqAfter (step (offering 0xFF ready)) = some (.respond .illegalRequest 0) := by decide

/-! ## Command cycles -/

/-- V41-1. -/
theorem test_cycUnlock1 : event (exec .cycUnlock1 (inSeq .unlU1)) = some (.bus (.w 0x10000AAA 0x00AA)) := by decide

/-- V41-3: the address wraps. -/
theorem test_cycUnlock1_wrap : event (exec .cycUnlock1 { inSeq (.rst .u1) with base := 0xFFFFF800 }) =
    some (.bus (.w 0x000002AA 0x00AA)) := by decide

/-- The same with addresses of 24 bits (R66). -/
theorem test_cycUnlock1_wrap24 : event (exec .cycUnlock1
    { inSeq (.rst .u1) with base := 0xFFF800, params := { ready.params with aw := 24 } }) =
    some (.bus (.w 0x0002AA 0x00AA)) := by decide

/-- V44-9: the origin of a page. -/
theorem test_cycUnlock2_page : event (exec .cycUnlock2
    { inSeq .wbU2 with paddr := 0x10010000, params := { ready.params with wbUnlockOrigin := .page } }) =
    some (.bus (.w 0x10010554 0x0055)) := by decide

/-- V41-2. -/
theorem test_cycReset : event (exec .cycReset (inSeq (.rst .f0))) = some (.bus (.w 0x10000000 0x00F0)) := by decide

/-- V43-1. -/
theorem test_cycIdEntry : event (exec .cycIdEntry (inSeq .midEnter)) = some (.bus (.w 0x10000AAA 0x0090)) := by decide

/-- V43-6. -/
theorem test_cycCfiEntry : event (exec .cycCfiEntry (inSeq (.rqf .cfi))) = some (.bus (.w 0x100000AA 0x0098)) := by
  decide

/-- V44-1. -/
theorem test_cycWordPgm : event (exec .cycWordPgm (inSeq .wpCmd)) = some (.bus (.w 0x10000AAA 0x00A0)) := by decide

/-- V44-3. -/
theorem test_cycEraseSetup : event (exec .cycEraseSetup (inSeq .erSetup)) = some (.bus (.w 0x10000AAA 0x0080)) := by
  decide

/-- V44-3. -/
theorem test_cycEraseConfirm : event (exec .cycEraseConfirm { inSeq .erConfirm with a0 := 0x10000 }) =
    some (.bus (.w 0x10010000 0x0030)) := by decide

/-- V44-7. -/
theorem test_cycWbLoad : event (exec .cycWbLoad { inSeq .wbLoad with paddr := 0x10010020 }) =
    some (.bus (.w 0x10010020 0x0025)) := by decide

/-- V44-8: a full page. -/
theorem test_cycWbCount : event (step { inSeq .wbCount with paddr := 0x10020000, rem := 65, bw := 32 }) =
    some (.bus (.w 0x10020000 0x001F)) := by decide

/-- V44-7: the poll is at the last word's address. -/
theorem test_cycWbConfirm : (after (exec .cycWbConfirm
    { inSeq .wbConfirm with paddr := 0x10010020, bw := 2, wdata := 0x5678 })).map
    (fun t => (t.trace, t.ptgt, t.expect)) = some ([.bus (.w 0x10010020 0x0029)], 0x10010022, 0x5678) := by decide

/-- V44-1. -/
theorem test_cycData : (after (exec (.cycData 0x1234) { inSeq .wpData with a0 := 0x10000, d := 0x1234 })).map
    (fun t => (t.trace, t.seq)) = some ([.bus (.w 0x10010000 0x1234)], .wpPoll) := by decide

/-- V44-7: word 1 of the page. -/
theorem test_cycData_page : event (exec (.cycData 0x5678)
    { inSeq .wbData with paddr := 0x10010020, bw := 2, wi := 1, wdata := 0x5678 }) =
    some (.bus (.w 0x10010022 0x5678)) := by decide

/-- V44-7: the two fetches build the word, low byte first. -/
theorem test_source_bytes :
    (after (step { inSeq .wbSrc1 with srcBuf := [0x34, 0x12], wdata := 0x0034 })).map (fun t => (t.wdata, t.trace)) =
      some (0x1234, [.host (.src 1 0x12)]) := by decide

/-- V60-1: the second cycle of RESET faults. -/
theorem test_busFault : (after (step { inSeq (.rst .u2) with faultPort := [true] })).map
    (fun t => (t.trace, t.faulted, t.seq)) = some ([.bus (.w 0x10000554 0x0055)], true, .faulted) := by decide

/-- V70-1. -/
theorem test_hardwareReset : (after (step { inSeq .wpData with resetPort := [true] })).map
    (fun t => (t.trace, t.seq, t.baseValid)) = some ([], .idle, false) := by decide

/-! ## Witnesses: states and operands that meet every hypothesis of a statement, at the boundaries of its clauses -/

/-- The ready state is ready, quiet and has its base: the hypotheses most operations share. -/
theorem witness_ready : ready.Ready ∧ ready.Quiet ∧ ready.baseValid = true := by decide

theorem witness_noBase : State.reset.Ready ∧ State.reset.Quiet ∧ State.reset.baseValid = false := by decide

/-- The clauses that turn a request away: before INIT, and on an odd operand. -/
theorem witness_odd : ready.Ready ∧ ready.Quiet ∧ isEven (ops 1 0 0).a0 = false ∧
    isEven (ops 0xFFFFFFFF 0 0).a0 = false ∧ isEven (ops 0 1 0).a1 = false := by decide

theorem witness_ManufacturerIdIsTheCell_turnedAway :
    State.reset.Ready ∧ State.reset.Quiet ∧ State.reset.baseValid = false :=
  witness_noBase

theorem witness_DeviceIdIsOneOrThreeBytes_turnedAway :
    State.reset.Ready ∧ State.reset.Quiet ∧ State.reset.baseValid = false :=
  witness_noBase

theorem witness_QueryAnswersByKey_turnedAway :
    State.reset.Ready ∧ State.reset.Quiet ∧ State.reset.baseValid = false :=
  witness_noBase

theorem witness_ReadBufferCopies_turnedAway :
    State.reset.Ready ∧ State.reset.Quiet ∧ State.reset.baseValid = false :=
  witness_noBase

theorem witness_QueryFieldIsTheCell_turnedAway :
    State.reset.Ready ∧ State.reset.Quiet ∧ State.reset.baseValid = false ∧
    ready.Ready ∧ ready.Quiet ∧ isEven (ops 1 0 0).a0 = false := by decide

theorem witness_WordProgramSequence_turnedAway :
    State.reset.Ready ∧ State.reset.Quiet ∧ State.reset.baseValid = false ∧
    ready.Ready ∧ ready.Quiet ∧ isEven (ops 1 0 0).a0 = false := by decide

theorem witness_EraseBlockSequence_turnedAway :
    State.reset.Ready ∧ State.reset.Quiet ∧ State.reset.baseValid = false ∧
    ready.Ready ∧ ready.Quiet ∧ isEven (ops 1 0 0).a0 = false := by decide

theorem witness_WriteBufferRunsItsPages_turnedAway :
    State.reset.Ready ∧ State.reset.Quiet ∧ State.reset.baseValid = false ∧
    ready.Ready ∧ ready.Quiet ∧ isEven (ops 1 0 0).a0 = false := by decide

theorem witness_PollReadsUntilEqualOrCeiling_turnedAway : ready.Ready ∧ ready.Quiet ∧
    isEven (ops 0xFFFFFFFF 0 0).a0 = false := by decide

theorem witness_BlockSizeIsExact_turnedAway :
    State.reset.Ready ∧ State.reset.Quiet ∧ State.reset.baseValid = false ∧
    ready.Ready ∧ ready.Quiet ∧ isEven (ops 1 0 0).a0 = false ∧ isEven (ops 0 1 0).a1 = false := by decide

theorem witness_DecodeInvertsEncode : (Instr.query (ops 0xFFFFFFFF 0xFFFFFFFF 0xFFFF)).fits 32 = true ∧
    Instr.fits 1 .cycReset = true := by decide

theorem witness_EncodeInvertsDecode :
    decode 32 0xFFFFFFFFFFFFFFFFFFFFFF23 = .ok (.readBuffer ⟨3, 0xFFFFFFFF, 0xFFFFFFFF, 0xFFFF⟩) ∧
      (0xFFFFFFFFFFFFFFFFFFFFFF23 : Nat) < 2 ^ (32 + 2 * 32) := by decide

theorem witness_IllegalCodesAndIgnoredBits :
    (0xFC01 : Nat) % 2 ^ 10 = 0x01 % 2 ^ 10 ∧ (0xFC01 : Nat) / 2 ^ 16 = 0x01 / 2 ^ 16 ∧
      decode 32 0xFC00 = .reject (.illegalOpcode 0) := by decide

theorem witness_StepRunsOfferedRequest : (offering 0x05 ready).Ready ∧
    (offering 0x05 ready).resetAsserted = false ∧ (offering 0x05 ready).requests = ⟨0x05, []⟩ :: [] ∧
    decode 32 0x05 = .ok (.reset (ops 0 0 0)) := by decide

theorem witness_StepRunsNamedCycle : (inSeq .wpData).faulted = false ∧ (inSeq .wpData).resetAsserted = false ∧
    (inSeq .wpData).cycleInstr = some (.cycData 0) := by decide

theorem witness_StepRunsPlacedTableWord : ready.params.aw = Config.Params.default.aw ∧
    decodeTableWord 8 0x01 = some (.init (ops 0 0 0)) ∧
    decodeTableWord 16 0x29 = some .cycWbConfirm ∧ decodeTableWord 0 0xFFFF = some (.cycData 0xFFFF) := by decide

theorem witness_IdleBlockWaits : ready.Ready ∧ ready.resetAsserted = false ∧ ready.requests = [] := by decide

theorem witness_BusyBlockAcceptsNothing_step : ∃ t, step (offering 0x05 (inSeq .unlU1)) = .next t ∧
    (offering 0x05 (inSeq .unlU1)).seq ≠ .idle := ⟨_, rfl, by decide⟩

theorem witness_BusyBlockAcceptsNothing_exec : (Instr.reset (ops 0 0 0)).isRequest = true ∧
    (inSeq .erPoll).faulted = false ∧ (inSeq .erPoll).seq ≠ .idle ∧ (inSeq .erPoll).seq ≠ .faulted := by decide

theorem witness_OneStepOneEvent_wait : ∃ t, step ready = .next t ∧ ready.seq = .idle ∧ ready.requests = [] :=
  ⟨_, rfl, by decide⟩

theorem witness_OneStepOneEvent_reset : ∃ t, step { inSeq .wpU1 with resetPort := [true] } = .next t ∧
    State.resetAsserted { inSeq .wpU1 with resetPort := [true] } = true := ⟨_, rfl, by decide⟩

theorem witness_OneStepOneEvent_event : ∃ t, step (inSeq .wpU1) = .next t ∧
    ¬((inSeq .wpU1).resetAsserted = true ∨ ((inSeq .wpU1).seq = .idle ∧ (inSeq .wpU1).requests = [])) :=
  ⟨_, rfl, by decide⟩

theorem witness_HardwareResetSetsRegisters : State.resetAsserted
    { ready with faulted := true, seq := .faulted, resetPort := [true] } = true := by decide

/-- One inadmissible request for each check of R108. -/
theorem witness_InadmissibleRequestIsIllegal_code : (offering 0x00 ready).Ready ∧
    (offering 0x00 ready).resetPort = [] ∧ ¬Admissible 0x00 ready := by
  refine ⟨by decide, by decide, ?_⟩
  rintro ⟨i, h, -⟩
  simp [decode, opOf] at h

theorem witness_InadmissibleRequestIsIllegal_initTwice : ¬Admissible 0x000000000000200000000001 ready := by
  rintro ⟨i, -, -, -, h⟩
  exact absurd (h (by decide)) (by decide)

theorem witness_InadmissibleRequestIsIllegal_noBase : ¬Admissible 0x05 State.reset := by
  rintro ⟨i, hi, -, h, -⟩
  have : i = .reset (ops 0 0 0) := Decoded.ok.inj (hi.symm.trans (by decide))
  subst this
  exact absurd (h rfl) (by decide)

theorem witness_InadmissibleRequestIsIllegal_odd : ¬Admissible 0x000000000000000100010020 ready := by
  rintro ⟨i, hi, h, -⟩
  have : i = .wordProgram (ops 0x00000001 0 0) ∨ i.wellFormed 32 = false := by
    right
    have e : decode 32 0x000000000000000100010020 = .ok (.wordProgram (ops 0x00010001 0 0)) := by decide
    rw [Decoded.ok.inj (hi.symm.trans e)]
    decide
  have h : i.wellFormed 32 = true := h
  rcases this with rfl | h'
  · exact absurd h (by decide)
  · rw [h] at h'
    exact absurd h' (by decide)

/-- The highest even base, and the two ways INIT is turned away. -/
theorem witness_InitSetsBaseOnce : State.reset.Ready ∧ State.reset.resetPort = [] ∧ State.reset.baseValid = false ∧
    isEven (ops 0xFFFFFFFE 0 0).a0 = true ∧ ready.baseValid = true ∧ isEven (ops 0xFFFFFFFF 0 0).a0 = false := by decide

theorem witness_Write16MakesOneWrite : State.reset.Ready ∧ State.reset.Quiet ∧ isEven (ops 0xFFFFFFFE 0 0).a0 = true ∧
    isEven (ops 1 0 0).a0 = false := by decide

theorem witness_Read16ReturnsTheCell : State.reset.Ready ∧ State.reset.Quiet ∧ isEven (ops 0xFFFFFFFE 0 0).a0 = true ∧
    isEven (ops 1 0 0).a0 = false := by decide

theorem witness_UnlockMakesTwoWrites : ready.Ready ∧ ready.Quiet ∧ ready.baseValid = true ∧ State.reset.Ready ∧
    State.reset.Quiet ∧ State.reset.baseValid = false := by decide

theorem witness_ResetMakesThreeWrites : ready.Ready ∧ ready.Quiet ∧ ready.baseValid = true ∧ State.reset.Ready ∧
    State.reset.Quiet ∧ State.reset.baseValid = false := by decide

/-- Both at the default ceiling and at a ceiling of 0. -/
theorem witness_PollReadsUntilEqualOrCeiling : ready.Ready ∧ ready.Quiet ∧ isEven (ops 0xFFFFFFFE 0 0).a0 = true ∧
    State.Ready { ready with params := { ready.params with pollCeiling := 0 } } ∧
    State.Quiet { ready with params := { ready.params with pollCeiling := 0 } } := by decide

theorem witness_KindNeverMatters : (inSeq .erPoll).seq ≠ .idle ∧ (inSeq .erPoll).resetAsserted = false := by decide

theorem witness_ManufacturerIdIsTheCell : ready.Ready ∧ ready.Quiet ∧ ready.baseValid = true := witness_ready

theorem witness_DeviceIdIsOneOrThreeBytes : ready.Ready ∧ ready.Quiet ∧ ready.baseValid = true := witness_ready

theorem witness_QueryFieldIsTheCell : ready.Ready ∧ ready.Quiet ∧ ready.baseValid = true ∧
    isEven (ops 0x4E 0 0).a0 = true := by decide

theorem witness_BlockSizeIsExact : ready.Ready ∧ ready.Quiet ∧ ready.baseValid = true ∧
    isEven (ops 0x5E 0x60 0).a0 = true ∧ isEven (ops 0x5E 0x60 0).a1 = true := by decide

/-- The five keys, and the first and last unrecognized one. -/
theorem witness_QueryAnswersByKey : ready.Ready ∧ ready.Quiet ∧ ready.baseValid = true ∧ (ops 0 0 0).a0 = 0 ∧
    (ops 1 0 0).a0 = 1 ∧ (ops 2 0 0).a0 = 2 ∧ (ops 3 0 0).a0 = 3 ∧ (ops 4 0 0).a0 = 4 ∧
    5 ≤ (ops 5 0 0).a0 ∧ 5 ≤ (ops 0xFFFFFFFF 0 0).a0 := by decide

theorem witness_WordProgramSequence : ready.Ready ∧ ready.Quiet ∧ ready.baseValid = true ∧
    isEven (ops 0x10000 0 0x1234).a0 = true := by decide

theorem witness_EraseBlockSequence : ready.Ready ∧ ready.Quiet ∧ ready.baseValid = true ∧
    isEven (ops 0x10000 0 0).a0 = true := by decide

theorem witness_WriteBufferRunsItsPages : ready.Ready ∧ ready.Quiet ∧ ready.baseValid = true ∧
    isEven (ops 0x20000 140 0).a0 = true := by decide

/-- The shortest and the longest length. -/
theorem witness_WriteBufferOpensItsFirstPage : ready.Ready ∧ ready.baseValid = true ∧
    isEven (ops 0x20000 1 0).a0 = true ∧ (ops 0x20000 1 0).a1 ≠ 0 ∧ (ops 0x20000 0xFFFFFFFF 0).a1 ≠ 0 := by decide

/-- The longest length. -/
theorem witness_ReadBufferCopies : ready.Ready ∧ ready.Quiet ∧ ready.baseValid = true ∧
    (ops 1 0xFFFFFFFF 0).a1 < 2 ^ ready.params.aw := by decide

/-- Length 0, and the last bytes of the address space. -/
theorem witness_ReadBufferReadsEachCellOnce : ready.Ready ∧ ready.Quiet ∧ ready.baseValid = true ∧
    ready.at (ops 0xEFFFFFFD 3 0).a0 + (ops 0xEFFFFFFD 3 0).a1 ≤ 2 ^ ready.params.aw ∧
    (ops 0xEFFFFFFD 3 0).a1 < 2 ^ ready.params.aw ∧ (ops 0 0 0).a1 = 0 ∧
    ready.at (ops 0 0 0).a0 + (ops 0 0 0).a1 ≤ 2 ^ ready.params.aw := by decide

/-- The ready block with the reference responder. -/
def respReady : State := { ready with device := responder }

theorem witness_ReadBufferIsAFlatCopy : respReady.Ready ∧ respReady.Quiet ∧ respReady.baseValid = true ∧
    respReady.device.law = .responder ∧ respReady.device.mode = .array ∧ respReady.device.busy.isDone = true ∧
    (ops 0 0xFFFFFFFF 0).a1 < 2 ^ respReady.params.aw := by decide

theorem witness_UnlockCyclesInEveryPhase : (inSeq .unlU1).faulted = false ∧ (inSeq .unlU1).busFaulting = false ∧
    (inSeq .unlU1).seq = .unlU1 ∧ (inSeq (.wbRst .u1)).busFaulting = false ∧ (inSeq (.wbRst .u1)).seq = .wbRst .u1 ∧
    (inSeq .wbU1).seq = .wbU1 ∧ (inSeq .unlU2).seq = .unlU2 ∧ (inSeq (.wbRst .u2)).seq = .wbRst .u2 ∧
    (inSeq .wbU2).seq = .wbU2 := by decide

theorem witness_ResetCycleInEveryPhase : (inSeq (.rst .f0)).faulted = false ∧
    (inSeq (.rst .f0)).busFaulting = false ∧ (inSeq (.rst .f0)).seq = .rst .f0 ∧
    (inSeq (.midRst .f0)).seq = .midRst .f0 ∧ (inSeq (.didRst .f0)).seq = .didRst .f0 ∧
    (inSeq (.rqf (.rst .f0))).seq = .rqf (.rst .f0) ∧ (inSeq (.gbsLow (.rst .f0))).seq = .gbsLow (.rst .f0) ∧
    (inSeq (.gbsHigh (.rst .f0))).seq = .gbsHigh (.rst .f0) ∧ (inSeq (.wpRst .f0)).seq = .wpRst .f0 ∧
    (inSeq (.erRst0 .f0)).seq = .erRst0 .f0 ∧ (inSeq (.erRst .f0)).seq = .erRst .f0 ∧
    (inSeq (.wbAbort .f0)).seq = .wbAbort .f0 ∧ (inSeq (.wbRst .f0)).seq = .wbRst .f0 := by decide

theorem witness_EntryAndSetupCycles : (inSeq .midEnter).faulted = false ∧ (inSeq .midEnter).busFaulting = false ∧
    (inSeq .midEnter).seq = .midEnter ∧ (inSeq (.gbsHigh .enter)).seq = .gbsHigh .enter ∧
    (inSeq (.rqf .cfi)).seq = .rqf .cfi ∧ (inSeq (.gbsHigh .cfi)).seq = .gbsHigh .cfi ∧
    (inSeq .wpCmd).seq = .wpCmd ∧ (inSeq .erSetup).seq = .erSetup := by decide

theorem witness_EraseConfirmOpensThePoll : (inSeq .erConfirm).faulted = false ∧
    (inSeq .erConfirm).busFaulting = false ∧ (inSeq .erConfirm).seq = .erConfirm := by decide

theorem witness_BufferLoadAndCountCycles : (inSeq .wbLoad).faulted = false ∧ (inSeq .wbLoad).busFaulting = false ∧
    (inSeq .wbLoad).seq = .wbLoad ∧ (inSeq .wbCount).seq = .wbCount := by decide

theorem witness_BufferConfirmOpensThePoll : (inSeq .wbConfirm).faulted = false ∧
    (inSeq .wbConfirm).busFaulting = false ∧ (inSeq .wbConfirm).seq = .wbConfirm := by decide

theorem witness_DataCycles : (inSeq .wpData).faulted = false ∧ (inSeq .wpData).busFaulting = false ∧
    (inSeq .wpData).seq = .wpData ∧ (inSeq .wbData).busFaulting = false ∧ (inSeq .wbData).seq = .wbData := by decide

/-- V60-1. -/
def faulting : State := { inSeq (.rst .u2) with faultPort := [true] }

theorem witness_BusFaultStopsTheBlock_write : faulting.faulted = false ∧ faulting.resetPort = [] ∧
    faulting.busFaulting = true ∧ faulting.comingWrite = some (0x10000554, 0x0055) ∧
    faulting.cycleInstr = some .cycUnlock2 := by decide

theorem witness_BusFaultStopsTheBlock_write16 : State.busFaulting { inSeq .wrCyc with faultPort := [true] } = true ∧
    State.comingWrite { inSeq .wrCyc with faultPort := [true], a0 := 0xFFFFFFFE, d := 0xFFFF } =
      some (0xFFFFFFFE, 0xFFFF) := by decide

/-- A poll read, and the last identifier read, which is at BASE + 0x1E. -/
theorem witness_BusFaultStopsTheBlock_read : State.busFaulting { inSeq .pollRd with faultPort := [true] } = true ∧
    State.comingRead { inSeq .pollRd with faultPort := [true], ptgt := 0x10010000 } = some 0x10010000 ∧
    (inSeq .didExt2).comingRead = some 0x1000001E := by decide

theorem witness_BusFaultStopsTheBlock_noCycle : ∃ t,
    step { inSeq (.respond .success 0) with faultPort := [true] } = .next t ∧
      (inSeq (.respond .success 0)).comingWrite = none ∧ (inSeq (.respond .success 0)).comingRead = none :=
  ⟨_, rfl, by decide⟩

theorem witness_BaseWrittenOnlyByInit_init : ∃ t, step (offering 0x000000000000100000000001 State.reset) = .next t ∧
    t.base ≠ State.reset.base ∧ t.baseValid ≠ State.reset.baseValid := ⟨_, rfl, by decide⟩

theorem witness_BaseWrittenOnlyByInit_reset : ∃ t, step { ready with resetPort := [true] } = .next t ∧
    t.baseValid ≠ ready.baseValid := ⟨_, rfl, by decide⟩

theorem witness_ConfigurationIsConstant : ∃ t, step { ready with resetPort := [true] } = .next t := ⟨_, rfl⟩

theorem witness_LatchedOperandsAreReadOnly : ∃ t, step (inSeq .wpU1) = .next t ∧ (inSeq .wpU1).seq ≠ .idle ∧
    (inSeq .wpU1).resetAsserted = false := ⟨_, rfl, by decide⟩

theorem witness_StatusWrittenOnlyByTheResponse : ∃ t, step (inSeq (.respond .timeout 0)) = .next t ∧
    t.status ≠ (inSeq (.respond .timeout 0)).status := ⟨_, rfl, by decide⟩

theorem witness_BusWritesAreEncodedCycles_cycle : ∃ t, step (inSeq .unlU1) = .next t ∧
    t.trace = (inSeq .unlU1).trace ++ [wr 0x10000AAA 0x00AA] := ⟨_, rfl, by decide⟩

theorem witness_BusWritesAreEncodedCycles_write16 : ∃ t, step { inSeq .wrCyc with d := 0xAB } = .next t ∧
    t.trace = (inSeq .wrCyc).trace ++ [wr 0 0xAB] := ⟨_, rfl, by decide⟩

theorem witness_ReadsAreTheDevicesAnswers : ∃ t, step (answering [0xBEEF] (inSeq .rdCyc)) = .next t ∧
    t.trace = (inSeq .rdCyc).trace ++ [rd 0 0xBEEF] := ⟨_, rfl, by decide⟩

theorem witness_EveryOperationEnds : (inSeq .wpPoll).resetPort = [] ∧ (inSeq .wpPoll).faulted = false ∧
    (inSeq .wpPoll).seq ≠ .faulted ∧ PollBounded (inSeq .wpPoll) ∧ PageBounded (inSeq .wpPoll) ∧
    (inSeq .wpPoll).a1 < 2 ^ (inSeq .wpPoll).params.aw := by decide

/-- The same inside a full page, at its last word. -/
theorem witness_EveryOperationEnds_page :
    PollBounded { inSeq .wbSrc0 with rem := 33, bw := 32, wi := 31 } ∧
      PageBounded { inSeq .wbSrc0 with rem := 33, bw := 32, wi := 31 } := by decide

theorem witness_StepKeepsFaultAgreement : FaultAgrees faulting ∧ ∃ t, step faulting = .next t :=
  ⟨by decide, _, rfl⟩

/-- The last cycle of a word program under the responder commits to the array. -/
theorem witness_StepKeepsArrayCanonical :
    ArrayCanonical { inSeq .wpData with device := { responder with mode := .pgm } } ∧
      ∃ t, step { inSeq .wpData with device := { responder with mode := .pgm } } = .next t ∧
        t.device.arr ≠ [] := ⟨by decide, _, rfl, by decide⟩

theorem witness_StepKeepsPollBounded : PollBounded (answering [0] { inSeq .pollRd with expect := 1 }) ∧
    ∃ t, step (answering [0] { inSeq .pollRd with expect := 1 }) = .next t := ⟨by decide, _, rfl⟩

theorem witness_StepKeepsPageBounded : PageBounded { inSeq .wbData with rem := 1, bw := 1, wi := 0 } ∧
    ∃ t, step { inSeq .wbData with rem := 1, bw := 1, wi := 0 } = .next t := ⟨by decide, _, rfl⟩

theorem witness_StepKeepsErrorsCarryZero : ErrorsCarryZero (inSeq (.respond .timeout 0)) ∧
    ∃ t, step (inSeq (.respond .timeout 0)) = .next t := by
  refine ⟨⟨by decide, ?_⟩, _, rfl⟩
  intro st res h _
  have h' : Seq.respond .timeout 0 = Seq.respond st res := h
  injection h' with _ h2
  exact h2.symm

theorem witness_StepKeepsBusAligned_range : InRange (inSeq .wpU1) ∧ ∃ t, step (inSeq .wpU1) = .next t :=
  ⟨⟨by decide, by decide, by decide, by decide, by decide, by decide, by decide, by decide, by decide, by decide⟩, _,
    rfl⟩

theorem witness_StepKeepsBusAligned : Aligned (inSeq .wpU1) ∧ ∃ t, step (inSeq .wpU1) = .next t :=
  ⟨⟨by decide, by decide, ⟨by decide, by decide⟩, by decide⟩, _, rfl⟩

theorem witness_StepKeepsFreshUnlock : FreshlyUnlocked (inSeq .wpU1) ∧ ∃ t, step (inSeq .wpU1) = .next t :=
  ⟨⟨fun h => absurd h (by decide), fun h => absurd h (by decide), fun h => absurd h (by decide)⟩, _, rfl⟩

/-- V43-6: the query mode entry after an unlock and the ID-read entry. -/
def cfiNext : State :=
  { inSeq (.rqf .cfi) with trace := [wr 0x10000AAA 0x00AA, wr 0x10000554 0x0055, wr 0x10000AAA 0x0090] }

theorem witness_StepKeepsFreshUnlock_cfi : FreshlyUnlocked cfiNext ∧ cfiNext.seq.cycle = some .cfiEntry ∧
    ∃ t, step cfiNext = .next t :=
  ⟨⟨fun h => absurd h (by decide), fun h => absurd h (by decide), fun _ => ⟨[], by decide⟩⟩, rfl, _, rfl⟩

/-- A write at the top of the address space, and its neighbours. -/
theorem witness_ArrayReadAfterWrite : Memory.wf [(4, 0x12), (0xFFFFFFFE, 0x34)] ∧
    (0xFFFFFFFD : Nat) ≠ cellKey 0xFFFFFFFF ∧ (0x100000000 : Nat) ≠ cellKey 0xFFFFFFFF + 1 := by decide

/-- The responder after UNLOCK. -/
def unlocked : Device := Device.seen 32 (unlockEvents 32 0x10000000) responder

/-- The responder with two words of a page still expected. -/
def loading : Device := { responder with mode := .wbData, wbn := 2, pend := [.cell 0x10000100 0x1234] }

/-- The responder after a write no sequence begins with. -/
def corrupted : Device := responder.write 32 0x10000000 0x1234

/-- A mode of each kind in which the array stays: an unlock may start there, a page is loading, its count or its confirm
cycle is next, an unlock has just ended. -/
theorem witness_ResponderReset_kept : 12 ≤ 32 ∧ responder.law = .responder ∧ responder.mode = .array ∧
    loading.law = .responder ∧ loading.mode = .wbData ∧ 0 < loading.wbn ∧
    Device.busy { responder with mode := .wbCnt } = .reads 0 ∧ Device.law { responder with mode := .wbConf } = .responder ∧
    unlocked.law = .responder ∧ unlocked.busy.isDone = true ∧ unlocked.mode = .u2 ∧ unlocked.heard = .both := by decide

/-- A write at which `RESP` stops in ARRAY, and one after UNLOCK, which only starts an unlock afresh. -/
theorem witness_ResponderReset_stops :
    (responder.respWrite 32 0x10000000 0x1234).isNone = true ∧
    ¬(responder.heard = .both ∧ responder.isReset 32 0x10000000 0x1234 = true) ∧
    responder.restarts 32 0x10000000 0x1234 = false ∧ (unlocked.respWrite 32 0x10000AAA 0x00AA).isNone = true ∧
    ¬(unlocked.heard = .both ∧ unlocked.isReset 32 0x10000AAA 0x00AA = true) ∧
    unlocked.restarts 32 0x10000AAA 0x00AA = true := by decide

theorem witness_ResponderReset_free : corrupted.law = .responder ∧ corrupted.isFree = true ∧
    ¬(corrupted.heard = .both ∧ corrupted.isReset 32 0x10000000 0x00F0 = true) := by decide

/-- 70_reset_and_hazards.md R414: RESET after UNLOCK leads to ARRAY. -/
theorem test_responder_unlockThenReset :
    (Device.seen 32 (resetEvents 32 0x10000000) unlocked).mode = .array ∧
      (Device.seen 32 (resetEvents 32 0x10000000) unlocked).lost = false := by decide

/-- R324 "including an in-flight buffered program", R334: what was pending is dropped. -/
theorem test_responder_abortsTheLoad : (Device.seen 32 (resetEvents 32 0x10000000) loading).mode = .array ∧
    (Device.seen 32 (resetEvents 32 0x10000000) loading).pend = [] ∧
    (Device.seen 32 (resetEvents 32 0x10000000) loading).arr = [] := by decide

/-- R330, U6: the answers are free until a reset; after it the mode is ARRAY and the array unconstrained. -/
theorem test_responder_corruptedThenReset : corrupted.isFree = true ∧
    (Device.seen 32 (resetEvents 32 0x10000000) corrupted).isFree = false ∧
    (Device.seen 32 (resetEvents 32 0x10000000) corrupted).mode = .array ∧
    (Device.seen 32 (resetEvents 32 0x10000000) corrupted).lost = true := by decide

theorem witness_ResponderProgramsAWord : 12 ≤ 12 ∧ responder.law = .responder ∧ responder.mode = .array ∧
    responder.busyReads = .reads 0 ∧ ([] : List Cell).length = 0 ∧
    Device.busyReads { responder with busyReads := .reads 2 } = .reads 2 ∧ [(0 : Cell), 0].length = 2 := by decide

theorem witness_ResponderErasesABlock : 12 ≤ 12 ∧ responder.law = .responder ∧ responder.mode = .array ∧
    responder.pend = [] ∧
    responder.busyReads = .reads 0 ∧ ([] : List Cell).length = 0 ∧ Memory.wf responder.arr := by decide

end Sys2Proof.Tests
end

section
/-! The events a step appends to the traces (00_scope.md R12, R13). -/

namespace Sys2Proof.Machine

/-- The event of a busy block, other than a response, is one event of the traces. -/
theorem event_appends_one {s : State} (hidle : s.seq ≠ .idle) (hfault : s.seq ≠ .faulted)
    (hresp : ∀ st res, s.seq ≠ .respond st res) : ∃ e, s.event.trace = s.trace ++ [e] := by
  obtain ⟨_, _, h⟩ | ⟨_, _, _, h⟩ | ⟨_, h⟩ | ⟨_, _, h, _⟩ | h | h | ⟨st, res, h⟩ := event_trace s
  · exact ⟨_, h⟩
  · exact ⟨_, h⟩
  · exact ⟨_, h⟩
  · exact ⟨_, h⟩
  · exact absurd h hidle
  · exact absurd h hfault
  · exact absurd h (hresp st res)

/-- A ready block waits with nothing offered, or appends the acceptance of the oldest request. -/
theorem stepIdle_trace {s t : State} (hready : s.Ready) (h : stepIdle s = .next t) :
    (s.requests = [] ∧ t.trace = s.trace) ∨ (s.requests ≠ [] ∧ ∃ e, t.trace = s.trace ++ [e]) := by
  obtain ⟨hnone, rfl⟩ | ⟨r, rest, hoffered, hstart⟩ := stepIdle_cases hready h
  · exact .inl ⟨hnone, rfl⟩
  · exact .inr ⟨by simp [hoffered], _, hstart.trace_eq⟩

/-- Settles O10, by the cases of `step`: a hardware reset and a wait append nothing; an acceptance, a response and the
event of a busy block append one event each. -/
theorem oneStepOneEvent : Obligations.OneStepOneEvent := by
  intro s t h
  obtain ⟨hreset, rfl⟩ | ⟨hreset, hf, ⟨hidle, h⟩ | ⟨st, res, hresp, rfl⟩ | ⟨hidle, hfault, hresp, rfl⟩⟩ := step_cases h
  case inl => exact .inl ⟨.inl hreset, rfl⟩
  case inr.inl =>
    obtain ⟨hnone, htrace⟩ | ⟨hoffered, hone⟩ := stepIdle_trace (s := s.popReset) ⟨hidle, hf⟩ h
    · exact .inl ⟨.inr ⟨hidle, hnone⟩, htrace⟩
    · exact .inr ⟨by simpa [hreset, hidle] using hoffered, hone⟩
  case inr.inr.inl => exact .inr ⟨by simp [hreset, hresp], _, rfl⟩
  case inr.inr.inr =>
    have hone := event_appends_one (s := s.popReset) hidle hfault hresp
    exact .inr ⟨by simp [hreset, hidle], by simpa using hone⟩

end Sys2Proof.Machine
end

section
/-! When the machine stops: a ready or busy block always has a next state (10_state.md R34, 60_exceptions.md R364). -/

namespace Sys2Proof.Machine

/-- A request offered to a ready block is answered with a next state, admitted or not. -/
theorem request_next {op : BitVec 8} {f : Fields} {admits : State → Bool} {start : State → State} {s : State}
    (hready : s.Ready) : ∃ t, request op f admits start s = .next t := by
  cases hadmits : admits (s.accept op f)
  · exact ⟨_, request_rejected hready hadmits⟩
  · exact ⟨_, request_admitted hready hadmits⟩

/-- A decoded request at a ready block is answered with a next state, for the meaning of every operation is `request`
with an admission check and a start of its own. -/
theorem exec_decoded_next {aw w : Nat} {i : Instr} {s : State} (hready : s.Ready) (hdecode : decode aw w = .ok i) :
    ∃ t, exec i s = .next t := by
  unfold decode at hdecode
  split at hdecode <;> cases hdecode <;>
    simp only [exec, execInit, execWrite16, execRead16, execUnlock, execReset, execPoll, execGetManufacturerId,
      execGetDeviceId, execReadQueryField, execGetBlockSize, execQuery, execWordProgram, execEraseBlock,
      execWriteBuffer, execReadBuffer]
  all_goals exact request_next hready

/-- A ready block has a step, whatever is offered to it. -/
theorem stepIdle_next {s : State} (hready : s.Ready) : ∃ t, stepIdle s = .next t := by
  unfold stepIdle
  split
  · exact ⟨_, rfl⟩
  · split
    · rename_i hdecode
      exact exec_decoded_next hready hdecode
    · exact request_next hready

/-- A block that is not stopped has a next event. -/
theorem stepEvent_next {s : State} (hstop : s.stopped = false) : ∃ t, stepEvent s = .next t := by
  have hf : s.faulted = false := (Bool.or_eq_false_iff.mp hstop).1
  by_cases hidle : s.seq = .idle
  · obtain ⟨t, ht⟩ := stepIdle_next ⟨hidle, hf⟩
    exact ⟨t, by simpa [stepEvent, hstop, hidle] using ht⟩
  · by_cases hresp : ∃ st res, s.seq = .respond st res
    · obtain ⟨st, res, hresp⟩ := hresp
      exact ⟨_, stepEvent_respond hf hresp⟩
    · exact ⟨_, stepEvent_busy hstop hidle fun st res hq => hresp ⟨st, res, hq⟩⟩

theorem stopped_iff (s : State) : s.stopped = true ↔ s.faulted = true ∨ s.seq = .faulted := by
  simp [State.stopped]

/-- A step either answers a next state, or is the bus-fault stop of a stopped block without hardware reset. -/
theorem step_outcome (s : State) :
    (¬(s.resetAsserted = false ∧ s.stopped = true) ∧ ∃ t, step s = .next t) ∨
      ((s.resetAsserted = false ∧ s.stopped = true) ∧ step s = .fault .busFault) := by
  have hpop : s.popReset.stopped = s.stopped := rfl
  cases hreset : s.resetAsserted
  · cases hstop : s.stopped
    · obtain ⟨t, ht⟩ := stepEvent_next (hpop.trans hstop)
      exact .inl ⟨by simp, t, by simpa [step, hreset] using ht⟩
    · exact .inr ⟨⟨rfl, rfl⟩, by simp [step, stepEvent, hreset, hpop, hstop]⟩
  · exact .inl ⟨by simp, s.popReset.hardwareReset, by simp [step, hreset]⟩

/-- Settles O11, by the two outcomes of a step. -/
theorem stepStopsOnlyWhenFaulted : Obligations.StepStopsOnlyWhenFaulted := by
  constructor
  · intro s e
    obtain ⟨_, t, ht⟩ | ⟨_, ht⟩ := step_outcome s <;> simp [ht]
  · intro s e
    rw [← stopped_iff]
    obtain ⟨hrun, t, ht⟩ | ⟨hstop, ht⟩ := step_outcome s
    · simpa [ht] using hrun
    · cases e
      simpa [ht] using hstop

end Sys2Proof.Machine
end

section
/-! What the decisions taken in zero steps between two events can write (10_state.md R31), and which of them lead into a
poll loop. -/

namespace Sys2Proof.Machine

/-- The head of the page loop opens a page or ends it, outside every poll loop. -/
theorem wbNextPage_writes (s : State) :
    ∃ q b, q.isPoll = false ∧ wbNextPage s = { s with seq := q, bw := b } := by
  unfold wbNextPage
  repeat' split
  all_goals exact ⟨_, _, rfl, rfl⟩

/-- The head of the byte loop moves SEQ alone, outside every poll loop. -/
theorem rbNext_writes (s : State) : ∃ q, q.isPoll = false ∧ rbNext s = s.goTo q := by
  unfold rbNext
  repeat' split
  all_goals exact ⟨_, rfl, rfl⟩

/-- The key decode of QUERY moves SEQ alone, outside every poll loop. -/
theorem queryKey_writes (s : State) : ∃ q, q.isPoll = false ∧ queryKey s = s.goTo q := by
  unfold queryKey
  split <;> exact ⟨_, rfl, rfl⟩

/-- Returning from a poll writes PRES and the page registers, and leaves the poll loop. -/
theorem pollReturn_writes (ok : Bool) (s : State) :
    ∃ q pa rm b, q.isPoll = false ∧
      pollReturn ok s = { s with pres := ok, seq := q, paddr := pa, rem := rm, bw := b } := by
  unfold pollReturn
  split
  · exact ⟨_, _, _, _, rfl, rfl⟩
  · exact ⟨_, _, _, _, rfl, rfl⟩
  · split
    · obtain ⟨q, b, hout, hpage⟩ := wbNextPage_writes
        { s with pres := ok, paddr := s.pageWord s.bw, rem := s.rem - s.bw.toNat }
      exact ⟨q, _, _, b, hout, hpage⟩
    · exact ⟨_, _, _, _, rfl, rfl⟩
  · exact ⟨_, _, _, _, rfl, rfl⟩

@[simp] theorem pollReturn_base (ok : Bool) (s : State) : (pollReturn ok s).base = s.base := by
  obtain ⟨_, _, _, _, _, h⟩ := pollReturn_writes ok s; rw [h]
@[simp] theorem pollReturn_baseValid (ok : Bool) (s : State) : (pollReturn ok s).baseValid = s.baseValid := by
  obtain ⟨_, _, _, _, _, h⟩ := pollReturn_writes ok s; rw [h]
@[simp] theorem pollReturn_pollCnt (ok : Bool) (s : State) : (pollReturn ok s).pollCnt = s.pollCnt := by
  obtain ⟨_, _, _, _, _, h⟩ := pollReturn_writes ok s; rw [h]
@[simp] theorem pollReturn_params (ok : Bool) (s : State) : (pollReturn ok s).params = s.params := by
  obtain ⟨_, _, _, _, _, h⟩ := pollReturn_writes ok s; rw [h]
@[simp] theorem pollReturn_isPoll (ok : Bool) (s : State) : (pollReturn ok s).seq.isPoll = false := by
  obtain ⟨_, _, _, _, hout, h⟩ := pollReturn_writes ok s; rw [h]; exact hout

@[simp] theorem pollStart_base (site : Seq) (a : Nat) (v : Cell) (s : State) :
    (pollStart site a v s).base = s.base := by
  unfold pollStart pollTest; split <;> simp
@[simp] theorem pollStart_baseValid (site : Seq) (a : Nat) (v : Cell) (s : State) :
    (pollStart site a v s).baseValid = s.baseValid := by
  unfold pollStart pollTest; split <;> simp

/-- An operation starts as INIT, which writes BASE; as POLL, which sets up its loop; or in a way that leaves BASE and
the poll registers alone. -/
theorem Starts.shape {u t : State} (h : Starts u t) :
    (u.op = Opcode.init ∧ admitsInit u = true ∧ t = State.reply .success 0 { u with base := u.a0, baseValid := true }) ∨
      t = pollStart .pollRd u.a0 u.d u ∨
      ∃ q pa rm b si ri, q.isPoll = false ∧
        t = { u with seq := q, paddr := pa, rem := rm, bw := b, sidx := si, ridx := ri } := by
  cases h with
  | init hop hadmits => exact .inl ⟨hop, hadmits, rfl⟩
  | poll => exact .inr (.inl rfl)
  | query =>
    obtain ⟨q, hout, hkey⟩ := queryKey_writes u
    exact .inr (.inr ⟨q, _, _, _, _, _, hout, hkey⟩)
  | writeBuffer =>
    obtain ⟨q, b, hout, hpage⟩ := wbNextPage_writes { u with rem := wordCount u.a1, paddr := u.at u.a0, sidx := 0 }
    exact .inr (.inr ⟨q, _, _, b, _, _, hout, hpage⟩)
  | readBuffer =>
    obtain ⟨q, hout, hbyte⟩ := rbNext_writes { u with ridx := 0 }
    exact .inr (.inr ⟨q, _, _, _, _, _, hout, hbyte⟩)
  | _ => exact .inr (.inr ⟨_, _, _, _, _, _, rfl, rfl⟩)

/-- How advancing meets a poll loop: it goes on with the one SEQ stands in, enters one, or stays outside and leaves the
count. -/
theorem advance_poll_cases (s : State) :
    (s.seq.isPoll = true ∧ advance s = pollAfterRead s) ∨ (∃ site a v, advance s = pollStart site a v s) ∨
      ((advance s).seq.isPoll = false ∧ (advance s).pollCnt = s.pollCnt) := by
  cases hq : s.seq with
  | pollRd | wpPoll | erPoll | wbPoll => exact .inl ⟨rfl, by simp only [advance, hq]⟩
  | wpData | erConfirm | wbConfirm => exact .inr (.inl ⟨_, _, _, by simp only [advance, hq]; rfl⟩)
  | rbOut =>
    obtain ⟨q, hout, hbyte⟩ := rbNext_writes s
    exact .inr (.inr (by simp [advance, hq, hbyte, hout]))
  | idle | faulted | respond => exact .inr (.inr (by simp [advance, hq, Seq.isPoll]))
  | _ =>
    right; right
    simp only [advance, hq, rstNext, rqfNext, wbWordDone]
    repeat' split
    all_goals exact ⟨rfl, rfl⟩

end Sys2Proof.Machine
end

section
/-! Who writes BASE, the configuration, the latched operands, STATUS and RESULT (10_state.md R22 to R33). -/

namespace Sys2Proof.Machine

/-- The start of an operation writes BASE and BASE_VALID only if it is that of an INIT admitted with BASE_VALID = 0 and
an even base. -/
theorem Starts.base_cases {u t : State} (h : Starts u t) :
    (t.base = u.base ∧ t.baseValid = u.baseValid) ∨
      (u.op = Opcode.init ∧ u.baseValid = false ∧ isEven u.a0 = true ∧ t.base = u.a0 ∧ t.baseValid = true) := by
  obtain ⟨hop, hadmits, rfl⟩ | rfl | ⟨_, _, _, _, _, _, _, rfl⟩ := h.shape
  · obtain ⟨hvalid, heven⟩ : u.baseValid = false ∧ isEven u.a0 = true := by simpa [admitsInit] using hadmits
    exact .inr ⟨hop, hvalid, heven, rfl, rfl⟩
  · simp
  · exact .inl ⟨rfl, rfl⟩

/-- Settles O44, by the principle for invariants: no part of a step writes the parameters. -/
theorem configurationIsConstant : Obligations.ConfigurationIsConstant := by
  intro s t h
  refine step_inv (P := fun u => u.params = s.params) ?reset ?pop ?take ?accept ?start ?respond ?event rfl h
  case reset => exact fun u hu => hu
  case pop => exact fun u hu => hu
  case take => exact fun u _ _ hu _ => hu
  case accept => exact fun u _ _ hu _ => hu
  case start => exact fun u v _ _ hu hstart => hstart.params_eq.trans hu
  case respond => exact fun u _ _ hu _ => hu
  case event => exact fun u _ _ _ _ hu => by simpa using hu

/-- Settles O43: hardware reset apart, the steps of a busy block leave BASE alone, and an idle block's step writes it only
by `Starts.base_cases`. -/
theorem baseWrittenOnlyByInit : Obligations.BaseWrittenOnlyByInit := by
  intro s t h hchange
  obtain ⟨hreset, _⟩ | ⟨_, hf, ⟨hidle, h⟩ | ⟨st, res, _, rfl⟩ | ⟨_, _, _, rfl⟩⟩ := step_cases h
  case inl => exact .inl hreset
  case inr.inl =>
    obtain ⟨_, rfl⟩ | ⟨r, rest, hoffered, hstart⟩ := stepIdle_cases (s := s.popReset) ⟨hidle, hf⟩ h
    · simp at hchange
    · obtain ⟨hbase, hvalid⟩ | ⟨hop, hnot, heven, hbase, hvalid⟩ := hstart.base_cases
      · simp [hbase, hvalid] at hchange
      · exact .inr ⟨hidle, hnot, hvalid, r, rest, hoffered, hop, hbase, hbase ▸ heven⟩
  case inr.inr.inl => simp at hchange
  case inr.inr.inr => simp at hchange

/-- Settles O45: neither the response nor the event of a busy block writes an operand. -/
theorem latchedOperandsAreReadOnly : Obligations.LatchedOperandsAreReadOnly := by
  intro s t h hbusy hreset
  obtain ⟨hreset', _⟩ | ⟨_, _, ⟨hidle, _⟩ | ⟨st, res, _, rfl⟩ | ⟨_, _, _, rfl⟩⟩ := step_cases h
  case inl => simp [hreset] at hreset'
  case inr.inl => exact absurd hidle hbusy
  case inr.inr.inl => exact ⟨rfl, rfl, rfl, rfl, rfl⟩
  case inr.inr.inr => simp

/-- Settles O46: hardware reset apart, only the response writes STATUS and RESULT, neither an acceptance nor the event of
a busy block. -/
theorem statusWrittenOnlyByTheResponse : Obligations.StatusWrittenOnlyByTheResponse := by
  intro s t h hchange
  obtain ⟨hreset, _⟩ | ⟨_, hf, ⟨hidle, h⟩ | ⟨st, res, hresp, rfl⟩ | ⟨_, _, _, rfl⟩⟩ := step_cases h
  case inl => exact .inl hreset
  case inr.inl =>
    obtain ⟨_, rfl⟩ | ⟨r, rest, _, hstart⟩ := stepIdle_cases (s := s.popReset) ⟨hidle, hf⟩ h
    · simp at hchange
    · simp [hstart.status_eq, hstart.result_eq] at hchange
  case inr.inr.inl => exact .inr ⟨st, res, hresp, rfl, rfl, rfl, rfl⟩
  case inr.inr.inr => simp at hchange

end Sys2Proof.Machine
end

section
/-! FAULTED and SEQ agree (10_state.md R34). -/

namespace Sys2Proof.Machine

/-- The event of a running block and the advance after it keep FAULTED and SEQ in agreement. -/
theorem settled_event_faultAgrees {s : State} (hf : s.faulted = false) (hidle : s.seq ≠ .idle)
    (hfault : s.seq ≠ .faulted) : FaultAgrees s.event.settled := by
  have hseq := event_seq s hf
  cases hev : s.event.faulted
  · have hrunning : s.event.seq = s.seq := by simpa [hev] using hseq
    have hne := (advance_seq s.event (hrunning ▸ hidle) (hrunning ▸ hfault)).2
    simp [FaultAgrees, State.settled, hev, hne]
  · simp [FaultAgrees, State.settled, hev, hseq]

/-- Settles O50, by the principle for invariants: reset clears both, a start leaves both clear, the response follows no
fault, and a bus fault sets both. -/
theorem stepKeepsFaultAgreement : Obligations.StepKeepsFaultAgreement := by
  intro s t hs h
  refine step_inv (P := FaultAgrees) ?reset ?pop ?take ?accept ?start ?respond ?event hs h
  case reset => intro u _; simp [FaultAgrees]
  case pop => exact fun u hu => hu
  case take => exact fun u _ _ hu _ => hu
  case accept => exact fun u _ _ hu _ => hu
  case start =>
    intro u v _ hf _ hstart
    simp [FaultAgrees, hstart.faulted_eq, hf, hstart.seq_ne.2]
  case respond =>
    intro u st res hu hresp
    simpa [FaultAgrees, hresp] using hu
  case event => exact fun u hf hidle hfault _ _ => settled_event_faultAgrees hf hidle hfault

end Sys2Proof.Machine
end

section
/-! POLLCNT stays within POLL_CEILING (10_state.md R28, 42_poll.md R181). -/

namespace Sys2Proof.Machine

/-- Outside the poll loop the count need only be within the ceiling. -/
theorem pollBounded_outside {s : State} (hle : s.pollCnt.toNat ≤ s.params.pollCeiling.toNat)
    (hout : s.seq.isPoll = false) : PollBounded s :=
  ⟨hle, by simp [hout]⟩

theorem pollReturn_bounded {ok : Bool} {s : State} (hle : s.pollCnt.toNat ≤ s.params.pollCeiling.toNat) :
    PollBounded (pollReturn ok s) :=
  pollBounded_outside (by simpa using hle) (pollReturn_isPoll ok s)

/-- The bound "is tested before each read", so a read that follows finds the count below the ceiling. -/
theorem pollTest_bounded {s : State} (hle : s.pollCnt.toNat ≤ s.params.pollCeiling.toNat) :
    PollBounded (pollTest s) := by
  unfold pollTest
  split
  next => exact pollReturn_bounded hle
  next hleft =>
    have hne : s.pollCnt ≠ s.params.pollCeiling := by simpa [State.pollExhausted] using hleft
    exact ⟨hle, fun _ => Nat.lt_of_le_of_ne hle fun heq => hne (BitVec.eq_of_toNat_eq heq)⟩

theorem pollStart_bounded (site : Seq) (a : Nat) (v : Cell) (s : State) : PollBounded (pollStart site a v s) :=
  pollTest_bounded (Nat.zero_le _)

/-- One more read counted stays within the ceiling, for the count was below it. -/
theorem pollAfterRead_bounded {s : State} (hlt : s.pollCnt.toNat < s.params.pollCeiling.toNat) :
    PollBounded (pollAfterRead s) := by
  have hle : (s.pollCnt + 1).toNat ≤ s.params.pollCeiling.toNat := by bv_omega
  unfold pollAfterRead
  dsimp only
  split
  · exact pollReturn_bounded hle
  · exact pollTest_bounded hle

theorem advance_bounded {s : State} (h : PollBounded s) : PollBounded (advance s) := by
  obtain ⟨hle, hloop⟩ := h
  obtain ⟨hpoll, hnext⟩ | ⟨site, a, v, hnext⟩ | ⟨hout, hcnt⟩ := advance_poll_cases s
  · exact hnext ▸ pollAfterRead_bounded (hloop hpoll)
  · exact hnext ▸ pollStart_bounded site a v s
  · exact pollBounded_outside (by simpa [hcnt] using hle) hout

/-- The event of a running block counts no read. -/
theorem event_bounded {s : State} (hf : s.faulted = false) (h : PollBounded s) : PollBounded s.event := by
  obtain ⟨hle, hloop⟩ := h
  refine ⟨by simpa using hle, ?_⟩
  rw [event_seq s hf]
  split
  · simp [Seq.isPoll]
  · simpa using hloop

theorem Starts.bounded {u t : State} (hu : PollBounded u) (h : Starts u t) : PollBounded t := by
  obtain ⟨_, _, rfl⟩ | rfl | ⟨_, _, _, _, _, _, hout, rfl⟩ := h.shape
  · exact pollBounded_outside hu.1 rfl
  · exact pollStart_bounded _ _ _ _
  · exact pollBounded_outside hu.1 hout

/-- Settles O52, by the principle for invariants: reset clears the count, a start and an advance keep the bound, and the
event of a busy block counts nothing. -/
theorem stepKeepsPollBounded : Obligations.StepKeepsPollBounded := by
  intro s t hs h
  refine step_inv (P := PollBounded) ?reset ?pop ?take ?accept ?start ?respond ?event hs h
  case reset => intro u _; simp [PollBounded, Seq.isPoll]
  case pop => exact fun u hu => hu
  case take => exact fun u _ _ hu _ => hu
  case accept => exact fun u _ _ hu _ => hu
  case start => exact fun u v _ _ hu hstart => hstart.bounded hu
  case respond => exact fun u st res hu _ => pollBounded_outside hu.1 rfl
  case event =>
    intro u hf _ _ _ hu
    have hev := event_bounded hf hu
    unfold State.settled
    split
    · exact hev
    · exact advance_bounded hev

end Sys2Proof.Machine
end

section
/-! The fetch at SEQ (10_state.md R29), and the state after reset (R40). -/

namespace Sys2Proof.Machine

/-- A position that names a command cycle is neither IDLE nor FAULTED. -/
theorem seq_ne_of_cycleInstr {s : State} {i : Instr} (h : s.cycleInstr = some i) :
    s.seq ≠ .idle ∧ s.seq ≠ .faulted := by
  constructor <;> intro hq <;> simp [State.cycleInstr, hq, Seq.cycle] at h

/-- Settles O6: a block that is not stopped and stands at the position of a command cycle fetches that cycle. -/
theorem stepRunsNamedCycle : Obligations.StepRunsNamedCycle := by
  intro s i hf hreset hcycle
  obtain ⟨hidle, hfault⟩ := seq_ne_of_cycleInstr hcycle
  have hstop : s.popReset.stopped = false := by simp [State.stopped, hf, hfault]
  have hpop : s.popReset.cycleInstr = some i := hcycle
  have hfetch : step s = exec i s.popReset := by simp [step, hreset, stepEvent, hstop, hidle, hpop]
  exact hfetch

/-- Settles O13: each value is the one `State.reset` gives its field. -/
theorem resetStateValues : Obligations.ResetStateValues :=
  ⟨rfl, rfl, rfl, rfl, rfl, rfl⟩

/-- Settles O14: SEQ is IDLE, the registers are 0 and the traces are empty, so each invariant holds of them. -/
theorem resetStateMeetsInvariants : Obligations.ResetStateMeetsInvariants := by
  refine ⟨?fault, ?array, ?poll, ?page, ?errors, ?range, ?aligned, ?fresh⟩
  case fault => decide
  case array => decide
  case poll => decide
  case page => decide
  case errors => exact ⟨fun _ => rfl, by simp [State.reset]⟩
  case range => simp [InRange, State.reset, State.busTrace, busEvents]
  case aligned => exact ⟨by decide, by decide, trivial, by simp [State.reset, State.busTrace, busEvents]⟩
  case fresh =>
    simp [FreshlyUnlocked, State.reset, Seq.isUnlock2, Seq.isPrivileged, Seq.cycle]

end Sys2Proof.Machine
end

section
/-! The bus accesses a step makes, and how SEQ moves through a reset or a query sequence: what the rules about bus
addresses rest on (10_state.md R36, 20_memory.md R68). -/

namespace Sys2Proof.Machine

/-- The bus cycle the position makes next, a write or a read, goes to address `a`. -/
def State.ComesTo (s : State) (a : Nat) : Prop :=
  (∃ v, s.comingWrite = some (a, v)) ∨ s.comingRead = some a

/-- A coming write is that of a command cycle, or of WRITE16. -/
theorem comingWrite_cases {s : State} {a : Nat} {v : Cell} (h : s.comingWrite = some (a, v)) :
    (∃ k, s.seq.cycle = some k ∧ s.cycleAddr k = a) ∨ (s.seq = .wrCyc ∧ s.a0 = a) := by
  cases hk : s.seq.cycle with
  | some k =>
    cases (comingWrite_cycle hk).symm.trans h
    exact .inl ⟨k, rfl, rfl⟩
  | none =>
    obtain ⟨hq, ha, _⟩ : s.seq = .wrCyc ∧ s.a0 = a ∧ s.d = v := by simpa [State.comingWrite, hk] using h
    exact .inr ⟨hq, ha⟩

/-- The event of a busy block, other than a response, adds the coming bus access to the bus trace, or nothing. -/
theorem event_busTrace_cases {s : State} (hidle : s.seq ≠ .idle) (hfault : s.seq ≠ .faulted)
    (hresp : ∀ st res, s.seq ≠ .respond st res) :
    s.event.busTrace = s.busTrace ∨ ∃ e, s.ComesTo (busAddr e) ∧ s.event.busTrace = s.busTrace ++ [e] := by
  obtain ⟨k, hk, _⟩ | ⟨_, a, ha, h⟩ | ⟨hq, h⟩ | ⟨_, _, h, _⟩ | h | h | ⟨st, res, h⟩ := event_trace s
  · exact .inr ⟨.w (s.cycleAddr k) (s.cycleValue k), .inl ⟨_, comingWrite_cycle hk⟩, event_busTrace_cycle hk⟩
  · exact
      .inr ⟨.r a (s.readValue a), .inr ha, by simp [State.busTrace, h, busEvents_append, busEvents, rd]⟩
  · have hwrite : s.comingWrite = some (s.a0, s.d) := by simp [State.comingWrite, hq, Seq.cycle]
    exact .inr ⟨.w s.a0 s.d, .inl ⟨_, hwrite⟩, by simp [State.busTrace, h, busEvents_append, busEvents, wr]⟩
  · exact .inl (by simp [State.busTrace, h, busEvents_append, busEvents])
  · exact absurd h hidle
  · exact absurd h hfault
  · exact absurd h (hresp st res)

/-- What holds of every address on the bus so far and of the coming one holds after the event. -/
theorem event_busAddr {P : Nat → Prop} {s : State} (hidle : s.seq ≠ .idle) (hfault : s.seq ≠ .faulted)
    (hresp : ∀ st res, s.seq ≠ .respond st res) (hbus : ∀ e ∈ s.busTrace, P (busAddr e))
    (hcome : ∀ a, s.ComesTo a → P a) : ∀ e ∈ s.event.busTrace, P (busAddr e) := by
  obtain h | ⟨e, he, h⟩ := event_busTrace_cases hidle hfault hresp
  · exact h ▸ hbus
  · rw [h]
    exact List.forall_mem_append.mpr ⟨hbus, by simpa using hcome _ he⟩

@[simp] theorem advance_busTrace (s : State) : (advance s).busTrace = s.busTrace :=
  congrArg busEvents (advance_trace s)

theorem Starts.busTrace_eq {u t : State} (h : Starts u t) : t.busTrace = u.busTrace :=
  congrArg busEvents h.trace_eq

/-- Acceptance is an event of the host trace alone. -/
@[simp] theorem State.accept_busTrace (op : BitVec 8) (f : Fields) (s : State) :
    (s.accept op f).busTrace = s.busTrace := by
  simp [State.busTrace, busEvents_append, busEvents]

/-- So is the response. -/
@[simp] theorem State.respond_busTrace (st : Status) (res : BitVec 64) (s : State) :
    (s.respond st res).busTrace = s.busTrace := by
  simp [State.busTrace, busEvents_append, busEvents]

/-- What holds at every position of a reset sequence and where it ends holds after its next cycle. -/
theorem rstNext_keeps {P : State → Prop} {phase : Rst → Seq} {done : State → State} {r : Rst} {s : State}
    (hphase : ∀ r', P (s.goTo (phase r'))) (hdone : P (done s)) : P (rstNext phase done r s) := by
  cases r
  · exact hphase _
  · exact hphase _
  · exact hdone

/-- The same of the READ_QUERY_FIELD sequence. -/
theorem rqfNext_keeps {P : State → Prop} {phase : Rqf → Seq} {done : State → State} {p : Rqf} {s : State}
    (hphase : ∀ p', P (s.goTo (phase p'))) (hdone : P (done s)) : P (rqfNext phase done p s) := by
  cases p with
  | read => unfold rqfNext; dsimp only; split <;> [exact hphase _; exact hdone]
  | rst r => exact rstNext_keeps (fun _ => hphase _) hdone
  | _ => exact hphase _

end Sys2Proof.Machine
end

section
/-! Every address register and every bus address is within its width (10_state.md R22, R26, R27, R36). -/

namespace Sys2Proof.Machine

/-- A length of AW bits has a word count of AW bits (44_program_erase.md R262). -/
theorem wordCount_lt {aw len : Nat} (h : len < 2 ^ aw) : wordCount len < 2 ^ aw := by
  unfold wordCount; omega

theorem cellOf_le (a : Nat) : cellOf a ≤ a := Nat.sub_le ..

theorem fieldsOf_a0_lt (aw w : Nat) : (fieldsOf aw w).a0 < 2 ^ aw := Nat.mod_lt _ (Nat.two_pow_pos aw)
theorem fieldsOf_a1_lt (aw w : Nat) : (fieldsOf aw w).a1 < 2 ^ aw := Nat.mod_lt _ (Nat.two_pow_pos aw)

/-! The decisions between two events. -/

/-- The head of the page loop writes no register that holds an address or a length. -/
theorem wbNextPage_inRange {s : State} (hs : InRange s) : InRange (wbNextPage s) := by
  obtain ⟨q, b, _, h⟩ := wbNextPage_writes s
  exact h ▸ hs

theorem wbPageDone_inRange {s : State} (hs : InRange s) : InRange (wbPageDone s) := by
  obtain ⟨hbase, ha0, ha1, hptgt, _, hrem, hregs⟩ := hs
  exact wbNextPage_inRange ⟨hbase, ha0, ha1, hptgt, addAW_lt .., (Nat.sub_le ..).trans_lt hrem, hregs⟩

theorem rbNext_inRange {s : State} (hs : InRange s) : InRange (rbNext s) := by
  obtain ⟨q, _, h⟩ := rbNext_writes s
  exact h ▸ hs

theorem pollReturn_inRange {ok : Bool} {s : State} (hs : InRange s) : InRange (pollReturn ok s) := by
  have hpres : InRange { s with pres := ok } := hs
  unfold pollReturn
  split
  · exact hs
  · exact hs
  · split
    · exact wbPageDone_inRange hpres
    · exact hs
  · exact hs

theorem pollTest_inRange {s : State} (hs : InRange s) : InRange (pollTest s) := by
  unfold pollTest
  split
  · exact pollReturn_inRange hs
  · exact hs

theorem pollStart_inRange {site : Seq} {a : Nat} {v : Cell} {s : State} (ha : a < 2 ^ s.params.aw) (hs : InRange s) :
    InRange (pollStart site a v s) := by
  obtain ⟨hbase, ha0, ha1, _, hregs⟩ := hs
  exact pollTest_inRange ⟨hbase, ha0, ha1, ha, hregs⟩

theorem pollAfterRead_inRange {s : State} (hs : InRange s) : InRange (pollAfterRead s) := by
  have hcount : InRange { s with pollCnt := s.pollCnt + 1 } := hs
  unfold pollAfterRead
  dsimp only
  split
  · exact pollReturn_inRange hcount
  · exact pollTest_inRange hcount

theorem advance_inRange {s : State} (hs : InRange s) : InRange (advance s) := by
  cases hq : s.seq with
  | pollRd | wpPoll | erPoll | wbPoll =>
    simp only [advance, hq]
    exact pollAfterRead_inRange hs
  | wpData | erConfirm | wbConfirm =>
    simp only [advance, hq]
    exact pollStart_inRange (addAW_lt ..) hs
  | rbOut =>
    simp only [advance, hq]
    exact rbNext_inRange hs
  | rbCell =>
    obtain ⟨hbase, ha0, ha1, hptgt, hpaddr, hrem, hridx, _, hregs⟩ := hs
    simp only [advance, hq]
    exact ⟨hbase, ha0, ha1, hptgt, hpaddr, hrem, hridx, (cellOf_le _).trans_lt (addAW_lt ..), hregs⟩
  | rst | midRst | didRst | wpRst | erRst0 | erRst | wbAbort | wbRst =>
    simp only [advance, hq]
    exact rstNext_keeps (fun _ => hs) hs
  | rqf | gbsLow | gbsHigh =>
    simp only [advance, hq]
    exact rqfNext_keeps (fun _ => hs) hs
  | didRead | wbData =>
    simp only [advance, hq, wbWordDone]
    split <;> exact hs
  | _ =>
    simp only [advance, hq]
    exact hs

/-! The event of a busy block. -/

/-- Only the second source fetch moves SIDX, and only a delivery moves RIDX. -/
theorem event_indices (s : State) :
    (s.event.sidx = s.sidx ∨ s.event.sidx = s.srcIndex s.sidx 2) ∧
      (s.event.ridx = s.ridx ∨ s.event.ridx = s.plus s.ridx 1) := by
  unfold State.event State.writeCycle
  split
  next k _ => cases k <;> simp [State.beforeCycle]
  next =>
    split
    · simp
    · split <;> simp

/-- A command cycle goes to BASE, to the page, or to a sum. -/
theorem cycleAddr_lt {s : State} (hs : InRange s) (k : CycleKind) : s.cycleAddr k < 2 ^ s.params.aw := by
  obtain ⟨hbase, _, _, _, hpaddr, _⟩ := hs
  cases k with
  | reset => exact hbase
  | wbLoad | wbCount | wbConfirm => exact hpaddr
  | data => unfold State.cycleAddr State.dataAddr; dsimp only; split <;> exact addAW_lt ..
  | _ => exact addAW_lt ..

/-- A read goes to A0, to the poll target, to a cell of BASE's window, or to the cell that holds a byte. -/
theorem comingRead_lt {s : State} {a : Nat} (hs : InRange s) (h : s.comingRead = some a) : a < 2 ^ s.params.aw := by
  obtain ⟨_, ha0, _, hptgt, _⟩ := hs
  cases hq : s.seq <;> simp only [State.comingRead, hq, reduceCtorEq, Option.some.injEq] at h
  case rdCyc => exact h ▸ ha0
  case pollRd | wpPoll | erPoll | wbPoll => exact h ▸ hptgt
  case rbCell => exact h ▸ (cellOf_le _).trans_lt (addAW_lt ..)
  case rqf p | gbsLow p | gbsHigh p =>
    cases p <;> cases h
    exact addAW_lt ..
  all_goals exact h ▸ addAW_lt ..

theorem comesTo_lt {s : State} {a : Nat} (hs : InRange s) (h : s.ComesTo a) : a < 2 ^ s.params.aw := by
  obtain ⟨v, hwrite⟩ | hread := h
  · obtain ⟨k, _, rfl⟩ | ⟨_, rfl⟩ := comingWrite_cases hwrite
    · exact cycleAddr_lt hs k
    · obtain ⟨_, ha0, _⟩ := hs
      exact ha0
  · exact comingRead_lt hs hread

theorem event_inRange {s : State} (hidle : s.seq ≠ .idle) (hfault : s.seq ≠ .faulted)
    (hresp : ∀ st res, s.seq ≠ .respond st res) (hs : InRange s) : InRange s.event := by
  have hcome := fun a => comesTo_lt (a := a) hs
  obtain ⟨hbase, ha0, ha1, hptgt, hpaddr, hrem, hridx, hrcell, hsidx, hbus⟩ := hs
  obtain ⟨hsidx', hridx'⟩ := event_indices s
  simp only [InRange, event_base, event_a0, event_a1, event_ptgt, event_paddr, event_rem, event_rcell, event_params]
  refine ⟨hbase, ha0, ha1, hptgt, hpaddr, hrem, ?ridx, hrcell, ?sidx, event_busAddr hidle hfault hresp hbus hcome⟩
  case ridx => obtain h | h := hridx' <;> rw [h] <;> [exact hridx; exact addAW_lt ..]
  case sidx => obtain h | h := hsidx' <;> rw [h] <;> [exact hsidx; exact addAW_lt ..]

theorem settled_inRange {s : State} (hs : InRange s) : InRange s.settled := by
  unfold State.settled
  split
  · exact hs
  · exact advance_inRange hs

/-! The other steps. -/

theorem accept_inRange {op : BitVec 8} {f : Fields} {s : State} (ha0 : f.a0 < 2 ^ s.params.aw)
    (ha1 : f.a1 < 2 ^ s.params.aw) (hs : InRange s) : InRange (s.accept op f) := by
  obtain ⟨hbase, _, _, hptgt, hpaddr, hrem, hridx, hrcell, hsidx, hbus⟩ := hs
  exact ⟨hbase, ha0, ha1, hptgt, hpaddr, hrem, hridx, hrcell, hsidx, by simpa using hbus⟩

theorem respond_inRange {st : Status} {res : BitVec 64} {s : State} (hs : InRange s) : InRange (s.respond st res) := by
  obtain ⟨hbase, ha0, ha1, hptgt, hpaddr, hrem, hridx, hrcell, hsidx, hbus⟩ := hs
  exact ⟨hbase, ha0, ha1, hptgt, hpaddr, hrem, hridx, hrcell, hsidx, by simpa using hbus⟩

/-- Hardware reset gives every register 0 and keeps the trace (log 22). -/
theorem hardwareReset_inRange {s : State} (hs : InRange s) : InRange s.hardwareReset := by
  obtain ⟨_, _, _, _, _, _, _, _, _, hbus⟩ := hs
  have hpos := Nat.two_pow_pos s.params.aw
  exact ⟨hpos, hpos, hpos, hpos, hpos, hpos, hpos, hpos, Nat.two_pow_pos _, hbus⟩

theorem Starts.inRange {u t : State} (hu : InRange u) (h : Starts u t) : InRange t := by
  have ⟨hbase, ha0, ha1, hptgt, hpaddr, hrem, hridx, hrcell, hsidx, hbus⟩ := hu
  cases h with
  | init => exact ⟨ha0, ha0, ha1, hptgt, hpaddr, hrem, hridx, hrcell, hsidx, hbus⟩
  | poll => exact pollStart_inRange ha0 hu
  | query =>
    obtain ⟨q, _, hkey⟩ := queryKey_writes u
    exact hkey ▸ hu
  | writeBuffer =>
    exact wbNextPage_inRange
      ⟨hbase, ha0, ha1, hptgt, addAW_lt .., wordCount_lt ha1, hridx, hrcell, Nat.two_pow_pos _, hbus⟩
  | readBuffer =>
    exact rbNext_inRange ⟨hbase, ha0, ha1, hptgt, hpaddr, hrem, Nat.two_pow_pos _, hrcell, hsidx, hbus⟩
  | _ => exact hu

/-- The fields of a request word have the width the decoder reads it at, so acceptance keeps the range; the other parts
of a step keep it from any state. -/
theorem step_inRange {s t : State} (hs : InRange s) (h : step s = .next t) : InRange t := by
  have hpop : InRange s.popReset := hs
  obtain ⟨_, rfl⟩ | ⟨_, hf, ⟨hidle, h⟩ | ⟨st, res, _, rfl⟩ | ⟨hidle, hfault, hresp, rfl⟩⟩ := step_cases h
  case inl => exact hardwareReset_inRange hpop
  case inr.inl =>
    obtain ⟨_, rfl⟩ | ⟨r, rest, _, hstart⟩ := stepIdle_cases (s := s.popReset) ⟨hidle, hf⟩ h
    · exact hpop
    · have htake : InRange (s.popReset.takeRequest r rest) := hpop
      exact hstart.inRange (accept_inRange (fieldsOf_a0_lt ..) (fieldsOf_a1_lt ..) htake)
  case inr.inr.inl => exact respond_inRange hpop
  case inr.inr.inr => exact settled_inRange (event_inRange hidle hfault hresp hpop)

end Sys2Proof.Machine
end

section
/-! Every bus access is to an even address: what each position rests on, and how a step hands it to the next
(20_memory.md R68, 30_encoding.md R108). -/

namespace Sys2Proof.Machine

/-! ## Even offsets -/

/-- The cell-offset parameters, one by one. -/
theorem even_offsets {p : Config.Params} (h : p.even = true) :
    isEven p.mfrCellOffset = true ∧ isEven p.devCellOffset = true ∧ isEven p.sizeFieldOffset = true ∧
      isEven p.blkszLowOffset = true ∧ isEven p.blkszHighOffset = true := by
  simpa [Config.Params.even, isEven, and_assoc] using h

/-- The offset of a query field is a parameter under QUERY, and an operand otherwise. -/
theorem isEven_fieldOffset {s : State} (hp : s.params.even = true) (h : s.op ≠ Opcode.query → isEven s.a0 = true) :
    isEven s.fieldOffset = true := by
  obtain ⟨_, _, hsize, _⟩ := even_offsets hp
  unfold State.fieldOffset
  split <;> [exact hsize; exact h ‹_›]

theorem isEven_lowOffset {s : State} (hp : s.params.even = true) (h : s.op ≠ Opcode.query → isEven s.a0 = true) :
    isEven s.lowOffset = true := by
  obtain ⟨_, _, _, hlow, _⟩ := even_offsets hp
  unfold State.lowOffset
  split <;> [exact hlow; exact h ‹_›]

theorem isEven_highOffset {s : State} (hp : s.params.even = true) (h : s.op ≠ Opcode.query → isEven s.a1 = true) :
    isEven s.highOffset = true := by
  obtain ⟨_, _, _, _, hhigh⟩ := even_offsets hp
  unfold State.highOffset
  split <;> [exact hhigh; exact h ‹_›]

/-! ## What a position rests on -/

/-- Every command cycle comes after an INIT. -/
theorem SeqAligned.baseValid_of_cycle {s : State} {k : CycleKind} (h : SeqAligned s) (hk : s.seq.cycle = some k) :
    s.baseValid = true := by
  unfold SeqAligned at h
  cases hq : s.seq <;> simp only [hq, Seq.cycle, reduceCtorEq] at h hk
  all_goals simp [h]

theorem SeqAligned.paddr_of_inPage {s : State} (h : SeqAligned s) (hpage : s.seq.inPage = true) :
    isEven s.paddr = true := by
  unfold SeqAligned at h
  cases hq : s.seq <;> simp only [hq, Seq.inPage, Bool.false_eq_true] at h hpage
  all_goals simp [h]

/-- The positions that emit a page's own cycles, the erase confirm and the data cycle (30_encoding.md R111). -/
theorem cycle_position {q : Seq} {k : CycleKind} (hk : q.cycle = some k) :
    (k = .wbLoad ∨ k = .wbCount ∨ k = .wbConfirm → q.inPage = true) ∧ (k = .eraseConfirm → q = .erConfirm) ∧
      (k = .data → q = .wpData ∨ q = .wbData) := by
  have hrst : ∀ r : Rst, r.cycle = .unlock1 ∨ r.cycle = .unlock2 ∨ r.cycle = .reset := by
    intro r; cases r <;> simp [Rst.cycle]
  cases q with
  | rst r | midRst r | didRst r | wpRst r | erRst0 r | erRst r | wbAbort r | wbRst r =>
    cases hk
    obtain h | h | h := hrst r <;> simp [h]
  | rqf p | gbsLow p | gbsHigh p =>
    cases p with
    | rst r =>
      cases hk
      obtain h | h | h := hrst r <;> simp [h]
    | _ => cases hk <;> simp
  | _ => cases hk <;> simp [Seq.inPage]

/-- The unlock's origin is BASE or the page (44_program_erase.md R261). -/
theorem isEven_unlockOrigin {s : State} (hbase : isEven s.base = true) (h : SeqAligned s) :
    isEven s.unlockOrigin = true := by
  unfold State.unlockOrigin
  split
  next hq =>
    have hpage : s.seq.inPage = true := by obtain hq | hq := hq <;> simp [hq, Seq.inPage]
    unfold State.wbOrigin
    split
    · exact hbase
    · exact h.paddr_of_inPage hpage
  next => exact hbase

theorem isEven_cycleAddr {s : State} {k : CycleKind} (hbase : s.baseValid = true → isEven s.base = true)
    (h : SeqAligned s) (hk : s.seq.cycle = some k) : isEven (s.cycleAddr k) = true := by
  have hbase := hbase (h.baseValid_of_cycle hk)
  obtain ⟨hpage, herase, hdata⟩ := cycle_position hk
  cases k with
  | unlock1 | unlock2 => exact isEven_plus (isEven_unlockOrigin hbase h) rfl
  | reset => exact hbase
  | idEntry | cfiEntry | wordPgm | eraseSetup => exact isEven_at hbase rfl
  | wbLoad | wbCount | wbConfirm => exact h.paddr_of_inPage (hpage (by simp))
  | eraseConfirm =>
    simp only [SeqAligned, herase rfl] at h
    exact isEven_at hbase h.2
  | data =>
    obtain hq | hq := hdata rfl <;> simp only [SeqAligned, hq] at h <;>
      simp only [State.cycleAddr, State.dataAddr, hq, reduceCtorEq, if_true, if_false]
    · exact isEven_at hbase h.2
    · exact isEven_pageWord _ h.2

theorem isEven_comingRead {s : State} {a : Nat} (hs : Aligned s) (h : s.comingRead = some a) : isEven a = true := by
  obtain ⟨hp, hbase, hseq, _⟩ := hs
  obtain ⟨hmfr, hdev, _⟩ := even_offsets hp
  cases hq : s.seq <;> simp only [State.comingRead, SeqAligned, hq, reduceCtorEq, Option.some.injEq] at h hseq
  case rdCyc | pollRd => exact h ▸ hseq
  case midRead => exact h ▸ isEven_at (hbase hseq) hmfr
  case didRead => exact h ▸ isEven_at (hbase hseq) hdev
  case didExt1 | didExt2 => exact h ▸ isEven_at (hbase hseq) rfl
  case rqf p =>
    cases p <;> cases h
    exact isEven_at (hbase hseq.1) hseq.2
  case gbsLow p =>
    cases p <;> cases h
    exact isEven_at (hbase hseq.1) hseq.2.1
  case gbsHigh p =>
    cases p <;> cases h
    exact isEven_at (hbase hseq.1) hseq.2.2
  case wpPoll | erPoll => exact h ▸ hseq.2
  case wbPoll => exact h ▸ hseq.2.2
  case rbCell => exact h ▸ isEven_cellOf _

theorem isEven_of_comesTo {s : State} {a : Nat} (hs : Aligned s) (h : s.ComesTo a) : isEven a = true := by
  obtain ⟨v, hwrite⟩ | hread := h
  · obtain ⟨_, hbase, hseq, _⟩ := hs
    obtain ⟨k, hk, rfl⟩ | ⟨hq, rfl⟩ := comingWrite_cases hwrite
    · exact isEven_cycleAddr hbase hseq hk
    · simpa only [SeqAligned, hq] using hseq
  · exact isEven_comingRead hs hread

/-! ## From one position to the next -/

theorem wbNextPage_seqAligned {s : State} (hvalid : s.baseValid = true) (hpaddr : isEven s.paddr = true) :
    SeqAligned (wbNextPage s) := by
  unfold wbNextPage
  split
  · split
    · exact hvalid
    · trivial
  · exact ⟨hvalid, hpaddr⟩

theorem rbNext_seqAligned {s : State} (hvalid : s.baseValid = true) : SeqAligned (rbNext s) := by
  unfold rbNext
  repeat' split
  · trivial
  · exact hvalid
  · exact hvalid

/-- The poller's caller goes on with BASE set; WRITE_BUFFER goes on from the even end of a page of whole words. -/
theorem pollReturn_seqAligned {ok : Bool} {s : State} (h : SeqAligned s) : SeqAligned (pollReturn ok s) := by
  unfold pollReturn
  split
  next hq =>
    simp only [SeqAligned, hq] at h
    exact h.1
  next hq =>
    simp only [SeqAligned, hq] at h
    exact h.1
  next hq =>
    simp only [SeqAligned, hq] at h
    obtain ⟨hvalid, hpaddr, _⟩ := h
    split
    · exact wbNextPage_seqAligned hvalid (isEven_pageWord _ hpaddr)
    · exact hvalid
  next => trivial

theorem pollTest_seqAligned {s : State} (h : SeqAligned s) : SeqAligned (pollTest s) := by
  unfold pollTest
  split
  · exact pollReturn_seqAligned h
  · exact h

theorem pollStart_seqAligned {site : Seq} {a : Nat} {v : Cell} {s : State}
    (h : SeqAligned { s with ptgt := a, seq := site }) : SeqAligned (pollStart site a v s) :=
  pollTest_seqAligned h

theorem pollAfterRead_seqAligned {s : State} (h : SeqAligned s) : SeqAligned (pollAfterRead s) := by
  have hcount : SeqAligned { s with pollCnt := s.pollCnt + 1 } := h
  unfold pollAfterRead
  dsimp only
  split
  · exact pollReturn_seqAligned hcount
  · exact pollTest_seqAligned hcount

theorem advance_seqAligned {s : State} (hbase : s.baseValid = true → isEven s.base = true) (h : SeqAligned s) :
    SeqAligned (advance s) := by
  have hpos := h
  cases hq : s.seq <;> simp only [SeqAligned, hq] at hpos <;> simp only [advance, hq]
  case pollRd | wpPoll | erPoll | wbPoll => exact pollAfterRead_seqAligned h
  case wpData | erConfirm => exact pollStart_seqAligned ⟨hpos.1, isEven_at (hbase hpos.1) hpos.2⟩
  case wbConfirm => exact pollStart_seqAligned ⟨hpos.1, hpos.2, isEven_pageWord _ hpos.2⟩
  case rst | midRst | didRst | wpRst | erRst | wbAbort | wbRst => exact rstNext_keeps (fun _ => hpos) trivial
  case erRst0 => exact rstNext_keeps (fun _ => hpos) hpos
  case rqf | gbsHigh => exact rqfNext_keeps (fun _ => hpos) trivial
  case gbsLow => exact rqfNext_keeps (fun _ => hpos) hpos
  case didRead => split <;> exact hpos
  case wbData => unfold wbWordDone; dsimp only; split <;> exact hpos
  case rbOut => exact rbNext_seqAligned hpos
  case wrCyc | rdCyc | unlU2 => trivial
  case idle | faulted | respond => exact h
  all_goals exact hpos

/-- The event writes nothing a position's alignment rests on, and a bus fault leaves a position that rests on
nothing. -/
theorem event_seqAligned {s : State} (hf : s.faulted = false) (h : SeqAligned s) : SeqAligned s.event := by
  have hseq := event_seq s hf
  split at hseq
  next => simp only [SeqAligned, hseq]
  next =>
    obtain ⟨q, _, _, _, _, _, _, _, _, _, hev⟩ := event_writes s
    rw [hev] at hseq ⊢
    obtain rfl : q = s.seq := hseq
    exact h

theorem admitsOffset_iff (s : State) : admitsOffset s = true ↔ s.baseValid = true ∧ isEven s.a0 = true := by
  simp [admitsOffset]

theorem admitsOffsets_iff (s : State) :
    admitsOffsets s = true ↔ s.baseValid = true ∧ isEven s.a0 = true ∧ isEven s.a1 = true := by
  simp [admitsOffsets]

/-- The admission checks of R108 are what the first position of each operation rests on. -/
theorem Starts.seqAligned {u t : State} (hp : u.params.even = true) (hbase : u.baseValid = true → isEven u.base = true)
    (h : Starts u t) : SeqAligned t := by
  cases h with
  | rejected | init => trivial
  | write16 _ heven | read16 _ heven => exact heven
  | poll _ heven => exact pollStart_seqAligned heven
  | unlock _ hvalid | reset _ hvalid | getManufacturerId _ hvalid | getDeviceId _ hvalid => exact hvalid
  | readBuffer _ hvalid => exact rbNext_seqAligned hvalid
  | readQueryField _ hadmits =>
    obtain ⟨hvalid, ha0⟩ := (admitsOffset_iff u).mp hadmits
    exact ⟨hvalid, isEven_fieldOffset hp fun _ => ha0⟩
  | getBlockSize _ hadmits =>
    obtain ⟨hvalid, ha0, ha1⟩ := (admitsOffsets_iff u).mp hadmits
    exact ⟨hvalid, isEven_lowOffset hp fun _ => ha0, isEven_highOffset hp fun _ => ha1⟩
  | wordProgram _ hadmits | eraseBlock _ hadmits => exact (admitsOffset_iff u).mp hadmits
  | writeBuffer _ hadmits =>
    obtain ⟨hvalid, ha0⟩ := (admitsOffset_iff u).mp hadmits
    exact wbNextPage_seqAligned hvalid (isEven_at (hbase hvalid) ha0)
  | query hop hvalid =>
    unfold queryKey
    split
    · trivial
    · exact hvalid
    · exact hvalid
    · exact ⟨hvalid, isEven_fieldOffset hp (absurd hop)⟩
    · exact ⟨hvalid, isEven_lowOffset hp (absurd hop), isEven_highOffset hp (absurd hop)⟩
    · trivial

/-! ## The parts of a step -/

/-- Hardware reset clears BASE_VALID and keeps the parameters and the trace (log 22). -/
theorem hardwareReset_aligned {s : State} (hs : Aligned s) : Aligned s.hardwareReset := by
  obtain ⟨hp, _, _, hbus⟩ := hs
  exact ⟨hp, by simp, trivial, hbus⟩

theorem accept_aligned {op : BitVec 8} {f : Fields} {s : State} (hidle : s.seq = .idle) (hs : Aligned s) :
    Aligned (s.accept op f) := by
  obtain ⟨hp, hbase, _, hbus⟩ := hs
  exact ⟨hp, hbase, by simp [SeqAligned, hidle], by simpa using hbus⟩

theorem respond_aligned {st : Status} {res : BitVec 64} {s : State} (hs : Aligned s) : Aligned (s.respond st res) := by
  obtain ⟨hp, hbase, _, hbus⟩ := hs
  exact ⟨hp, hbase, trivial, by simpa using hbus⟩

theorem Starts.aligned {u t : State} (hu : Aligned u) (h : Starts u t) : Aligned t := by
  obtain ⟨hp, hbase, _, hbus⟩ := hu
  refine ⟨h.params_eq ▸ hp, ?base, h.seqAligned hp hbase, h.busTrace_eq ▸ hbus⟩
  obtain ⟨hb, hv⟩ | ⟨_, _, heven, hb, _⟩ := h.base_cases
  · rwa [hb, hv]
  · exact fun _ => hb ▸ heven

theorem event_aligned {s : State} (hf : s.faulted = false) (hidle : s.seq ≠ .idle) (hfault : s.seq ≠ .faulted)
    (hresp : ∀ st res, s.seq ≠ .respond st res) (hs : Aligned s) : Aligned s.event := by
  have hcome := fun a => isEven_of_comesTo (a := a) hs
  obtain ⟨hp, hbase, hseq, hbus⟩ := hs
  exact ⟨by simpa using hp, by simpa using hbase, event_seqAligned hf hseq,
    event_busAddr (P := fun a => isEven a = true) hidle hfault hresp hbus hcome⟩

theorem settled_aligned {s : State} (hs : Aligned s) : Aligned s.settled := by
  unfold State.settled
  split
  · exact hs
  · obtain ⟨hp, hbase, hseq, hbus⟩ := hs
    exact ⟨by simpa using hp, by simpa using hbase, advance_seqAligned hbase hseq, by simpa using hbus⟩

/-- By the principle for invariants: an idle block rests on nothing, the admission checks give what the first position
rests on, and each position hands on what the next one needs. -/
theorem step_aligned {s t : State} (hs : Aligned s) (h : step s = .next t) : Aligned t := by
  refine step_inv (P := Aligned) ?reset ?pop ?take ?accept ?start ?respond ?event hs h
  case reset => exact fun u hu => hardwareReset_aligned hu
  case pop => exact fun u hu => hu
  case take => exact fun u _ _ hu _ => hu
  case accept => exact fun u _ _ hu hidle => accept_aligned hidle hu
  case start => exact fun u v _ _ hu hstart => hstart.aligned hu
  case respond => exact fun u _ _ hu _ => respond_aligned hu
  case event => exact fun u hf hidle hfault hresp hu => settled_aligned (event_aligned hf hidle hfault hresp hu)

/-- Settles O55: the widths by the cases of a step, the alignment by the principle for invariants. -/
theorem stepKeepsBusAligned : Obligations.StepKeepsBusAligned :=
  ⟨fun _ _ => step_inRange, fun _ _ => step_aligned⟩

end Sys2Proof.Machine
end

section
/-! A request read as its operation code and its operands: what the decoder and the encoder make of them (30_encoding.md
R100, R102, R109, R111). -/

namespace Sys2Proof

/-- The operation code (R102) and the operands of a request; none of a command cycle. -/
def Instr.requestParts : Instr → Option (BitVec 8 × Fields)
  | .init f => some (Opcode.init, f)
  | .write16 f => some (Opcode.write16, f)
  | .read16 f => some (Opcode.read16, f)
  | .unlock f => some (Opcode.unlock, f)
  | .reset f => some (Opcode.reset, f)
  | .poll f => some (Opcode.poll, f)
  | .getManufacturerId f => some (Opcode.getManufacturerId, f)
  | .getDeviceId f => some (Opcode.getDeviceId, f)
  | .readQueryField f => some (Opcode.readQueryField, f)
  | .getBlockSize f => some (Opcode.getBlockSize, f)
  | .query f => some (Opcode.query, f)
  | .wordProgram f => some (Opcode.wordProgram, f)
  | .eraseBlock f => some (Opcode.eraseBlock, f)
  | .writeBuffer f => some (Opcode.writeBuffer, f)
  | .readBuffer f => some (Opcode.readBuffer, f)
  | _ => none

/-- An instruction is a request exactly if it has an operation code and operands. -/
theorem Instr.isRequest_iff (i : Instr) : i.isRequest = true ↔ ∃ op f, i.requestParts = some (op, f) := by
  cases i <;> simp [Instr.isRequest, Instr.requestParts]

/-- A request is encoded as the packed word of its parts, and its operands are those parts' operands. -/
theorem encode_request {i : Instr} {op : BitVec 8} {f : Fields} (aw : Nat) (h : i.requestParts = some (op, f)) :
    encode aw i = .request (packRequest aw op f) ∧ i.fits aw = f.fits aw := by
  cases i <;> cases h <;> exact ⟨rfl, rfl⟩

/-- The decoder reads the request whose code and operands are the word's own. -/
theorem decode_ok_iff {aw w : Nat} {i : Instr} :
    decode aw w = .ok i ↔ i.requestParts = some (opOf w, fieldsOf aw w) := by
  constructor
  · intro h
    unfold decode at h
    split at h <;> cases h <;> rename_i hn <;> rw [Machine.decode_op hn] <;> rfl
  · intro h
    cases i <;> simp only [Instr.requestParts, Option.some.injEq, Prod.mk.injEq, reduceCtorEq] at h
    all_goals
      obtain ⟨hop, rfl⟩ := h
      simp only [decode, ← hop]
      rfl

/-- A bus value read at its place is the command cycle it encodes (R111). -/
theorem decode_encode_cycle {i : Instr} (aw : Nat) (h : i.requestParts = none) :
    decodeEncoded aw (encode aw i) = .ok i := by
  cases i <;> simp only [Instr.requestParts, reduceCtorEq] at h
  case cycWbCount n =>
    have hcount : (n.zeroExtend 16).toNat < 32 := by simp; omega
    have hfield : (n.zeroExtend 16).extractLsb' 0 5 = n := by
      ext k hk
      simp [show k < 16 by omega, BitVec.getLsbD_eq_getElem hk]
    simp only [encode, decodeEncoded, decodeCycle, hcount, if_true, hfield]
  all_goals rfl

/-- Settles O1: a packed word gives its operation code and its operands back, whatever bits they hold, and those determine
the request; a command cycle is read at the place it is encoded for. -/
theorem decodeInvertsEncode : Obligations.DecodeInvertsEncode := by
  intro aw i hfits
  cases hparts : i.requestParts with
  | none => exact decode_encode_cycle aw hparts
  | some parts =>
    obtain ⟨op, f⟩ := parts
    obtain ⟨hencode, hwidth⟩ := encode_request aw hparts
    rw [hencode]
    apply decode_ok_iff.mpr
    rw [opOf_packRequest, fieldsOf_packRequest op (hwidth ▸ hfits), hparts]

/-- Settles O2: packing the word's own operation code and fields gives the word less its ignored bits. -/
theorem encodeInvertsDecode : Obligations.EncodeInvertsDecode := by
  intro aw w i hdecode
  obtain ⟨hencode, hwidth⟩ := encode_request aw (decode_ok_iff.mp hdecode)
  exact ⟨hwidth.trans (fieldsOf_fits aw w), fun hw => hencode.trans (congrArg _ (packRequest_opOf_fieldsOf hw))⟩

/-- The decoder rejects exactly the operation codes between those of R102 (R109). -/
theorem decode_reject_iff (aw w : Nat) :
    (∃ e, decode aw w = .reject e) ↔
      (opOf w).toNat = 0x00 ∨ (0x07 ≤ (opOf w).toNat ∧ (opOf w).toNat ≤ 0x0F) ∨
        (0x15 ≤ (opOf w).toNat ∧ (opOf w).toNat ≤ 0x1F) ∨ 0x24 ≤ (opOf w).toNat := by
  unfold decode
  split
  case h_16 =>
    simp only [imp_false] at *
    exact iff_of_true ⟨_, rfl⟩ (by omega)
  all_goals exact iff_of_false (by simp) (by omega)

/-- The operation code and the fields are read from bits 9:0 and from bits 16 upward (R100). -/
theorem opOf_fieldsOf_congr {w w' : Nat} (aw : Nat) (hlow : w % 2 ^ 10 = w' % 2 ^ 10) (hhigh : w / 2 ^ 16 = w' / 2 ^ 16) :
    opOf w = opOf w' ∧ fieldsOf aw w = fieldsOf aw w' := by
  have hop : opOf w = opOf w' := by
    apply BitVec.eq_of_toNat_eq
    simp only [opOf, BitVec.toNat_ofNat]
    omega
  have hkind : BitVec.ofNat 2 (w / 2 ^ 8) = BitVec.ofNat 2 (w' / 2 ^ 8) := by
    apply BitVec.eq_of_toNat_eq
    simp only [BitVec.toNat_ofNat]
    omega
  have habove : ∀ k, w / 2 ^ (16 + k) = w' / 2 ^ (16 + k) := by
    intro k
    rw [Nat.pow_add, ← Nat.div_div_eq_div_mul, ← Nat.div_div_eq_div_mul, hhigh]
  refine ⟨hop, ?_⟩
  simp only [fieldsOf, hkind, hhigh, habove]

/-- Settles O3: the rejected codes are those outside R102, and no field is read from bits 15:10. -/
theorem illegalCodesAndIgnoredBits : Obligations.IllegalCodesAndIgnoredBits := by
  refine ⟨decode_reject_iff, fun aw w w' hlow hhigh => ?_⟩
  obtain ⟨hop, hfields⟩ := opOf_fieldsOf_congr aw hlow hhigh
  exact decode_congr hop hfields

/-- Settles O4, by running the decoder on each of the words. -/
theorem writtenWordsDecode : Obligations.WrittenWordsDecode := by
  unfold Obligations.WrittenWordsDecode
  decide

end Sys2Proof
end

section
/-! The request a ready block executes, the one it turns away, and the one a busy block leaves to the requester
(30_encoding.md R107 to R109). -/

namespace Sys2Proof.Machine

/-- The meaning of a request is `request` with its own operation code and operands; the checks (2) to (4) of R108 that it
makes are BASE where it is needed, INIT only once, and the alignment of the operands. -/
theorem exec_request {i : Instr} {op : BitVec 8} {f : Fields} (h : i.requestParts = some (op, f)) :
    ∃ admits start, (∀ s, exec i s = request op f admits start s) ∧
      ∀ s : State, admits (s.accept op f) = true ↔
        (Instr.needsBase i = true → s.baseValid = true) ∧ (op = 0x01 → s.baseValid = false) ∧ i.aligned = true := by
  cases i <;> cases h <;> refine ⟨_, _, fun s => by unfold exec; rfl, fun s => ?_⟩
  all_goals
    simp [admitsInit, admitsAddress, admitsBase, admitsOffset, admitsOffsets, isEven, Instr.aligned, Instr.needsBase,
      Opcode.init, Opcode.write16, Opcode.read16, Opcode.unlock, Opcode.reset, Opcode.poll, Opcode.getManufacturerId,
      Opcode.getDeviceId, Opcode.readQueryField, Opcode.getBlockSize, Opcode.query, Opcode.wordProgram,
      Opcode.eraseBlock, Opcode.writeBuffer, Opcode.readBuffer]

/-! ## The ready block -/

/-- Settles O5: a ready block that is not reset has only the oldest request to execute. -/
theorem stepRunsOfferedRequest : Obligations.StepRunsOfferedRequest := by
  intro s r rest i ⟨hidle, hf⟩ hreset hoffered hdecode
  have hstop : s.popReset.stopped = false := by simp [State.stopped, hidle, hf]
  have hfetch : step s = exec i (s.popReset.takeRequest r rest) := by
    simp [step, hreset, stepEvent, hstop, hidle, stepIdle, hoffered, hdecode]
  exact hfetch

/-- A request word that fails a check of R108 is accepted and answered `ILLEGAL_REQUEST`, whether its operation code has a
meaning or none. -/
theorem stepIdle_inadmissible {s : State} {r : Request} {rest : List Request} (hready : s.Ready)
    (hoffered : s.requests = r :: rest) (hbad : ¬Admissible r.word s) :
    stepIdle s = .next (State.reply .illegalRequest 0
      ((s.takeRequest r rest).accept (opOf r.word) (fieldsOf s.params.aw r.word))) := by
  have htaken : (s.takeRequest r rest).Ready := hready
  cases hdecode : decode s.params.aw r.word with
  | reject e => simp [stepIdle, hoffered, hdecode, illegalRequest, request_rejected htaken]
  | ok i =>
    have hparts := decode_ok_iff.mp hdecode
    obtain ⟨admits, start, hexec, hadmits⟩ := exec_request hparts
    have hwidth : i.fits s.params.aw = true := (encode_request _ hparts).2.trans (fieldsOf_fits _ _)
    have hturned : admits ((s.takeRequest r rest).accept (opOf r.word) (fieldsOf s.params.aw r.word)) = false := by
      rw [Bool.eq_false_iff]
      intro hadmitted
      obtain ⟨hbase, honce, haligned⟩ := (hadmits _).mp hadmitted
      exact hbad ⟨i, hdecode, by simp [Instr.wellFormed, hwidth, haligned], hbase, honce⟩
    simp [stepIdle, hoffered, hdecode, hexec, request_rejected htaken hturned]

/-- Without a reset indication to use up, the pop changes nothing. -/
theorem popReset_eq_self {s : State} (h : s.resetPort = []) : s.popReset = s := by
  cases s
  cases h
  rfl

/-- A response follows when it is next and no hardware reset comes first. -/
theorem step_respond {s : State} {st : Status} {res : BitVec 64} (hreset : s.resetAsserted = false)
    (hf : s.faulted = false) (hq : s.seq = .respond st res) : step s = .next (s.popReset.respond st res) := by
  simpa [step, hreset] using stepEvent_respond (s := s.popReset) hf hq

/-- Settles O15: acceptance leads to the response `ILLEGAL_REQUEST`, which is the next step. -/
theorem inadmissibleRequestIsIllegal : Obligations.InadmissibleRequestIsIllegal := by
  intro s r rest hready hreset hoffered hbad
  have hasserted : s.resetAsserted = false := by simp [State.resetAsserted, hreset]
  have ⟨hidle, hf⟩ := hready
  set u := (s.takeRequest r rest).accept (opOf r.word) (fieldsOf s.params.aw r.word) with hu
  have haccept : step s = .next (u.reply .illegalRequest 0) := by
    simpa [step, hasserted, popReset_eq_self hreset, stepEvent, State.stopped, hidle, hf]
      using stepIdle_inadmissible hready hoffered hbad
  have hanswer : step (u.reply .illegalRequest 0) =
      .next ((u.reply .illegalRequest 0).popReset.respond .illegalRequest 0) :=
    step_respond (by simp [State.resetAsserted, hu, hreset]) (by simpa [hu] using hf) rfl
  rw [run_succ haccept, run_succ hanswer]
  simp [run, State.finished, State.latched, State.respond, State.reply, State.goTo, State.popReset, State.accept,
    State.takeRequest, Device.seen, reqEvent, respEvent, hu, hreset, hidle]

/-! ## The busy block -/

/-- A block that is busy and not stopped leaves a request with the requester (R107). -/
theorem request_busy {op : BitVec 8} {f : Fields} {admits : State → Bool} {start : State → State} {s : State}
    (hf : s.faulted = false) (hidle : s.seq ≠ .idle) (hfault : s.seq ≠ .faulted) :
    request op f admits start s = .next s := by
  simp [request, State.stopped, State.accepting, hf, hidle, hfault]

/-- The event of a busy block is no acceptance. -/
theorem event_trace_not_req {s : State} (hidle : s.seq ≠ .idle) (hfault : s.seq ≠ .faulted)
    (hresp : ∀ st res, s.seq ≠ .respond st res) :
    ∃ e, s.event.trace = s.trace ++ [e] ∧ ∀ op k x y z, e ≠ .host (.req op k x y z) := by
  obtain ⟨_, _, h⟩ | ⟨_, _, _, h⟩ | ⟨_, h⟩ | ⟨_, e, h, hne⟩ | h | h | ⟨st, res, h⟩ := event_trace s
  · exact ⟨_, h, by simp [wr]⟩
  · exact ⟨_, h, by simp [rd]⟩
  · exact ⟨_, h, by simp [wr]⟩
  · exact ⟨_, h, by simpa using hne⟩
  · exact absurd h hidle
  · exact absurd h hfault
  · exact absurd h (hresp st res)

/-- Settles O9: neither a hardware reset, a response nor another event of a busy block takes a request, and the meaning of
every request asks whether the block is idle first. -/
theorem busyBlockAcceptsNothing : Obligations.BusyBlockAcceptsNothing := by
  constructor
  · intro s t h hbusy
    obtain ⟨_, rfl⟩ | ⟨_, _, ⟨hidle, _⟩ | ⟨st, res, _, rfl⟩ | ⟨hidle, hfault, hresp, rfl⟩⟩ := step_cases h
    case inl => exact ⟨rfl, .inl rfl⟩
    case inr.inl => exact absurd hidle hbusy
    case inr.inr.inl => exact ⟨rfl, .inr ⟨_, rfl, by simp⟩⟩
    case inr.inr.inr =>
      have hone := event_trace_not_req (s := s.popReset) hidle hfault hresp
      exact ⟨by simp, .inr (by simpa using hone)⟩
  · intro i s hreq hf hidle hfault
    obtain ⟨op, f, hparts⟩ := i.isRequest_iff.mp hreq
    obtain ⟨admits, start, hexec, _⟩ := exec_request hparts
    rw [hexec, request_busy hf hidle hfault]

end Sys2Proof.Machine
end

section
/-! The word placed for the next step (logs 11, 12). -/

namespace Sys2Proof.Machine

/-- A word of the format CYCLE is never a request. -/
theorem decodeCycleWord_isRequest (v : Cell) : (decodeCycleWord v).isRequest = false := by
  unfold decodeCycleWord decodeCycle
  dsimp only
  split
  next hok => split at hok <;> cases hok <;> rfl
  next => split <;> rfl

/-- One more than a count field of five bits fits BW, and the field names it again (30_encoding.md R111). -/
theorem countField_add_one (n : BitVec 5) : countField (n.zeroExtend 6 + 1) = n := by
  apply BitVec.eq_of_toNat_eq
  rw [countField_toNat] <;> simp <;> omega

/-- A command cycle is placed where SEQ names it, with its operand in the register it is read from. -/
theorem cycleInstr_placeCycle {i : Instr} (s : State) (h : i.isRequest = false) :
    (s.placeCycle i).cycleInstr = some i := by
  cases i <;> simp only [Instr.isRequest, Bool.true_eq_false] at h
  case cycWbCount n => exact congrArg (fun c => some (Instr.cycWbCount c)) (countField_add_one n)
  all_goals rfl

/-- Placing a command cycle touches neither the fault flag nor the reset line. -/
theorem placeCycle_lines (i : Instr) (s : State) :
    (s.placeCycle i).faulted = s.faulted ∧ (s.placeCycle i).resetPort = s.resetPort := by
  cases i <;> exact ⟨rfl, rfl⟩

/-- The step after placing a command cycle executes it there. -/
theorem step_placeCycle {i : Instr} (s : State) (h : i.isRequest = false) :
    step (s.released.placeCycle i) = exec i (s.released.placeCycle i) := by
  obtain ⟨hf, hport⟩ := placeCycle_lines i s.released
  have hnone : (s.released.placeCycle i).resetPort = [] := hport
  have hfetch := stepRunsNamedCycle _ i hf (by simp [State.resetAsserted, hnone]) (cycleInstr_placeCycle s.released h)
  exact hfetch.trans (congrArg _ (popReset_eq_self hnone))

/-- The step after placing a request executes it, on the state it was placed in but idle, released and without source
bytes. -/
theorem step_placeRequest {s : State} {w : Nat} {i : Instr} (h : decode s.params.aw w = .ok i) :
    step (s.released.placeRequest w) =
      exec i { s with seq := .idle, faulted := false, resetPort := [], srcBuf := [] } :=
  stepRunsOfferedRequest _ ⟨w, []⟩ s.requests i ⟨rfl, rfl⟩ rfl rfl h

/-- Settles O7: sixteen bits, or none, are a command cycle and placed where SEQ names it; any other number of bits is a
request word and placed before every other. -/
theorem stepRunsPlacedTableWord : Obligations.StepRunsPlacedTableWord := by
  intro s nbits w i haw hword
  unfold decodeTableWord at hword
  unfold State.withFetchWord placeTableWord
  split at hword
  next h16 =>
    cases hword
    have hcycle := decodeCycleWord_isRequest (BitVec.ofNat 16 w)
    simpa [h16, hcycle] using step_placeCycle s hcycle
  next h16 =>
    split at hword
    next h0 =>
      cases hword
      simpa [h0, Instr.isRequest] using step_placeCycle (i := .cycData (BitVec.ofNat 16 w)) s rfl
    next h0 =>
      have hdecode : decode s.params.aw w = .ok i := by
        rw [haw]
        cases hd : decode Config.Params.default.aw w <;> simp_all [Decoded.toOption]
      have hreq : i.isRequest = true := i.isRequest_iff.mpr ⟨_, _, decode_ok_iff.mp hdecode⟩
      simpa [h16, h0, hreq] using step_placeRequest hdecode

end Sys2Proof.Machine
end

section
/-! The bus write of a command cycle: its address, its encoding, and where SEQ goes from there (30_encoding.md R111). -/

namespace Sys2Proof.Machine

/-- The cycle SEQ names has an instruction, whose encoding is the value written. -/
theorem cycleInstr_encode {s : State} {k : CycleKind} (h : s.seq.cycle = some k) :
    ∃ i p, s.cycleInstr = some i ∧ encode s.params.aw i = .cycle p (s.cycleValue k) := by
  simp only [State.cycleInstr, h]
  cases k <;> exact ⟨_, _, rfl, rfl⟩

/-- The write that the event of a busy block makes is the coming one: a command cycle's or WRITE16's. -/
theorem event_write_cases {s : State} {a : Nat} {v : Cell} (hidle : s.seq ≠ .idle) (hfault : s.seq ≠ .faulted)
    (hresp : ∀ st res, s.seq ≠ .respond st res) (h : s.event.trace = s.trace ++ [wr a v]) :
    (∃ k, s.seq.cycle = some k ∧ a = s.cycleAddr k ∧ v = s.cycleValue k) ∨ (s.seq = .wrCyc ∧ a = s.a0 ∧ v = s.d) := by
  obtain ⟨k, hk, h'⟩ | ⟨_, _, _, h'⟩ | ⟨hq, h'⟩ | ⟨_, _, h', _⟩ | h' | h' | ⟨st, res, h'⟩ := event_trace s
  · exact .inl ⟨k, hk, by simpa [wr] using h.symm.trans h'⟩
  · simp [h', wr, rd] at h
  · exact .inr ⟨hq, by simpa [wr] using h.symm.trans h'⟩
  · simp [h', wr] at h
  · exact absurd h' hidle
  · exact absurd h' hfault
  · exact absurd h' (hresp st res)

theorem comingWrite_wrCyc {s : State} (hq : s.seq = .wrCyc) : s.comingWrite = some (s.a0, s.d) := by
  simp [State.comingWrite, hq, Seq.cycle]

/-- Settles O47: a hardware reset, an acceptance and a response write nothing on the bus, so a write is that of the event of
a busy block. -/
theorem busWritesAreEncodedCycles : Obligations.BusWritesAreEncodedCycles := by
  intro s t a v h hwrite
  obtain ⟨_, rfl⟩ | ⟨_, hf, ⟨hidle, h⟩ | ⟨st, res, _, rfl⟩ | ⟨hidle, hfault, hresp, rfl⟩⟩ := step_cases h
  case inl => simp at hwrite
  case inr.inl =>
    obtain ⟨_, rfl⟩ | ⟨r, rest, _, hstart⟩ := stepIdle_cases (s := s.popReset) ⟨hidle, hf⟩ h
    · simp at hwrite
    · simp [hstart.trace_eq, wr] at hwrite
  case inr.inr.inl => simp [wr] at hwrite
  case inr.inr.inr =>
    obtain ⟨k, hk, rfl, rfl⟩ | ⟨hq, rfl, rfl⟩ :=
      event_write_cases (s := s.popReset) hidle hfault hresp (by simpa using hwrite)
    · exact ⟨comingWrite_cycle (s := s) hk, .inr (cycleInstr_encode (s := s) hk)⟩
    · exact ⟨comingWrite_wrCyc (s := s) hq, .inl ⟨hq, rfl, rfl⟩⟩

/-! ## Where SEQ goes after a command cycle -/

/-- A bus write the platform signals no fault on. -/
theorem busWrite_unfaulted {s : State} (a : Nat) (v : Cell) (hfault : s.busFaulting = false) :
    s.busWrite a v = s.cycled a v s.seq := by
  simp only [State.busWrite, State.endCycle]
  split
  next hfaulting => exact absurd (hfault.symm.trans hfaulting) Bool.false_ne_true
  next => rfl

/-- Without a bus fault the instruction at the position of a command cycle makes the cycle's write, and SEQ advances. -/
theorem exec_cycle {s : State} {i : Instr} {k : CycleKind} (hf : s.faulted = false) (hfault : s.busFaulting = false)
    (hk : s.seq.cycle = some k) (hi : s.cycleInstr = some i) :
    exec i s = .next (advance ((s.beforeCycle k).cycled (s.cycleAddr k) (s.cycleValue k) s.seq)) := by
  have hstop : s.stopped = false := by simp [State.stopped, hf, (seq_ne_of_cycleInstr hi).2]
  obtain ⟨k', hk', hexec⟩ := exec_cycleInstr hstop hi
  cases hk.symm.trans hk'
  have hbefore : (s.beforeCycle k).faulted = false ∧ (s.beforeCycle k).busFaulting = false ∧
      (s.beforeCycle k).seq = s.seq := by
    cases k <;> exact ⟨hf, hfault, rfl⟩
  obtain ⟨hf', hfault', hseq⟩ := hbefore
  rw [hexec, State.writeCycle, busWrite_unfaulted _ _ hfault', hseq]
  simp [afterCycle, State.cycled, hf']

/-- The position `p` emits the cycle `k`, and SEQ goes from it to `q` and writes nothing else (10_state.md R30). -/
def Seq.GoesOn (p : Seq) (k : CycleKind) (q : Seq) : Prop :=
  p.cycle = some k ∧ ∀ u : State, u.seq = p → advance u = u.goTo q

/-- The cycle of a position that only moves SEQ: one write, and SEQ at the next position. Data cycles write WDATA too. -/
theorem exec_cycle_goesOn {s : State} {i : Instr} {k : CycleKind} {q : Seq} (hf : s.faulted = false)
    (hfault : s.busFaulting = false) (hgo : s.seq.GoesOn k q) (hi : s.cycleInstr = some i) (hdata : k ≠ .data) :
    exec i s = .next (s.cycled (s.cycleAddr k) (s.cycleValue k) q) := by
  obtain ⟨hk, hadvance⟩ := hgo
  have hbefore : s.beforeCycle k = s := by
    unfold State.beforeCycle
    split
    · exact absurd rfl hdata
    · rfl
  rw [exec_cycle hf hfault hk hi, hbefore]
  exact congrArg _ (hadvance _ rfl)

/-- The ID-read entry at every position of R30 that emits it. -/
theorem idEntry_goesOn {p q : Seq}
    (h : (p, q) ∈ [(Seq.midEnter, Seq.midRead), (.didEnter, .didRead), (.rqf .enter, .rqf .cfi),
      (.gbsLow .enter, .gbsLow .cfi), (.gbsHigh .enter, .gbsHigh .cfi)]) : p.GoesOn .idEntry q := by
  simp only [List.mem_cons, List.not_mem_nil, or_false, Prod.mk.injEq] at h
  obtain ⟨rfl, rfl⟩ | ⟨rfl, rfl⟩ | ⟨rfl, rfl⟩ | ⟨rfl, rfl⟩ | ⟨rfl, rfl⟩ := h
  all_goals exact ⟨rfl, fun u hu => by simp only [advance, hu, rqfNext]⟩

/-- The query mode entry at every position of R30 that emits it. -/
theorem cfiEntry_goesOn {p q : Seq}
    (h : (p, q) ∈ [(Seq.rqf .cfi, Seq.rqf .read), (.gbsLow .cfi, .gbsLow .read), (.gbsHigh .cfi, .gbsHigh .read)]) :
    p.GoesOn .cfiEntry q := by
  simp only [List.mem_cons, List.not_mem_nil, or_false, Prod.mk.injEq] at h
  obtain ⟨rfl, rfl⟩ | ⟨rfl, rfl⟩ | ⟨rfl, rfl⟩ := h
  all_goals exact ⟨rfl, fun u hu => by simp only [advance, hu, rqfNext]⟩

/-- Settles O37: at each of these positions the cycle is emitted at its own address, and SEQ only moves on. -/
theorem entryAndSetupCycles : Obligations.EntryAndSetupCycles := by
  intro s hf hfault
  refine ⟨?idEntry, ?cfiEntry, ?wordPgm, ?eraseSetup⟩
  case idEntry =>
    intro p q hpq rfl
    have hgo := idEntry_goesOn hpq
    exact exec_cycle_goesOn hf hfault hgo (by simp [State.cycleInstr, hgo.1]) (by decide)
  case cfiEntry =>
    intro p q hpq rfl
    have hgo := cfiEntry_goesOn hpq
    exact exec_cycle_goesOn hf hfault hgo (by simp [State.cycleInstr, hgo.1]) (by decide)
  case wordPgm =>
    intro hq
    have hgo : s.seq.GoesOn .wordPgm .wpData := hq ▸ ⟨rfl, fun u hu => by simp only [advance, hu]⟩
    exact exec_cycle_goesOn hf hfault hgo (by simp [State.cycleInstr, hgo.1]) (by decide)
  case eraseSetup =>
    intro hq
    have hgo : s.seq.GoesOn .eraseSetup .erU1B := hq ▸ ⟨rfl, fun u hu => by simp only [advance, hu]⟩
    exact exec_cycle_goesOn hf hfault hgo (by simp [State.cycleInstr, hgo.1]) (by decide)

end Sys2Proof.Machine
end

section
/-! An error carries no result (30_encoding.md R104). -/

namespace Sys2Proof.Machine

/-- A response that SEQ announces carries 0 unless it is a success. -/
def Seq.AnnouncesErrorsWithZero (q : Seq) : Prop :=
  ∀ st res, q = .respond st res → st ≠ .success → res = 0

theorem reply_zero (st : Status) (s : State) : (s.reply st 0).seq.AnnouncesErrorsWithZero := by
  rintro _ _ ⟨⟩ _
  rfl

theorem reply_success (res : BitVec 64) (s : State) : (s.reply .success res).seq.AnnouncesErrorsWithZero := by
  rintro _ _ ⟨⟩ h
  exact absurd rfl h

/-- A position that is no response announces none. -/
theorem goTo_announces {q : Seq} (s : State) (h : ∀ st res, q ≠ .respond st res) :
    (s.goTo q).seq.AnnouncesErrorsWithZero :=
  fun st res hq => absurd hq (h st res)

/-! The decisions between two events. -/

theorem wbNextPage_announces (s : State) : (wbNextPage s).seq.AnnouncesErrorsWithZero := by
  unfold wbNextPage
  split
  · split
    · exact goTo_announces s (by simp)
    · exact reply_success 0 s
  · exact goTo_announces s (by simp)

theorem rbNext_announces (s : State) : (rbNext s).seq.AnnouncesErrorsWithZero := by
  unfold rbNext
  split
  · exact reply_success 0 s
  · split <;> exact goTo_announces s (by simp)

theorem queryKey_announces (s : State) : (queryKey s).seq.AnnouncesErrorsWithZero := by
  unfold queryKey
  split
  · exact reply_success _ s
  iterate 4 exact goTo_announces s (by simp)
  · exact reply_zero _ s

theorem pollReturn_announces (ok : Bool) (s : State) : (pollReturn ok s).seq.AnnouncesErrorsWithZero := by
  unfold pollReturn
  dsimp only
  split
  · exact goTo_announces _ (by simp)
  · exact goTo_announces _ (by simp)
  · split
    · exact wbNextPage_announces _
    · exact goTo_announces _ (by simp)
  · exact reply_zero _ _

theorem pollTest_announces {s : State} (hs : s.seq.AnnouncesErrorsWithZero) :
    (pollTest s).seq.AnnouncesErrorsWithZero := by
  unfold pollTest
  split
  · exact pollReturn_announces false s
  · exact hs

theorem pollStart_announces {site : Seq} (a : Nat) (v : Cell) (s : State) (hsite : site.AnnouncesErrorsWithZero) :
    (pollStart site a v s).seq.AnnouncesErrorsWithZero :=
  pollTest_announces hsite

theorem pollAfterRead_announces {s : State} (hs : s.seq.AnnouncesErrorsWithZero) :
    (pollAfterRead s).seq.AnnouncesErrorsWithZero := by
  unfold pollAfterRead
  dsimp only
  split
  · exact pollReturn_announces true _
  · exact pollTest_announces hs

/-- Advancing announces a timeout with 0, and every other result with a success. -/
theorem advance_announces {s : State} (hs : s.seq.AnnouncesErrorsWithZero) :
    (advance s).seq.AnnouncesErrorsWithZero := by
  cases hq : s.seq with
  | idle | faulted | respond =>
    simp only [advance, hq]
    exact hq ▸ hs
  | pollRd | wpPoll | erPoll | wbPoll =>
    simp only [advance, hq]
    exact pollAfterRead_announces hs
  | wpData | erConfirm | wbConfirm =>
    simp only [advance, hq]
    exact pollStart_announces _ _ s (goTo_announces s (by simp))
  | rbOut =>
    simp only [advance, hq]
    exact rbNext_announces s
  | wrCyc | rdCyc | unlU2 =>
    simp only [advance, hq]
    exact reply_success _ s
  | rst | midRst | didRst | wbRst =>
    simp only [advance, hq]
    exact rstNext_keeps (P := fun u => u.seq.AnnouncesErrorsWithZero) (fun _ => goTo_announces s (by simp))
      (reply_success _ s)
  | wpRst | erRst | wbAbort =>
    simp only [advance, hq]
    exact rstNext_keeps (P := fun u => u.seq.AnnouncesErrorsWithZero) (fun _ => goTo_announces s (by simp))
      (reply_zero _ s)
  | erRst0 =>
    simp only [advance, hq]
    exact rstNext_keeps (P := fun u => u.seq.AnnouncesErrorsWithZero) (fun _ => goTo_announces s (by simp))
      (goTo_announces s (by simp))
  | rqf | gbsHigh =>
    simp only [advance, hq]
    exact rqfNext_keeps (P := fun u => u.seq.AnnouncesErrorsWithZero) (fun _ => goTo_announces s (by simp))
      (reply_success _ s)
  | gbsLow =>
    simp only [advance, hq]
    exact rqfNext_keeps (P := fun u => u.seq.AnnouncesErrorsWithZero) (fun _ => goTo_announces s (by simp))
      (goTo_announces _ (by simp))
  | didRead | wbData =>
    simp only [advance, hq, wbWordDone]
    split <;> exact goTo_announces _ (by simp)
  | _ =>
    simp only [advance, hq]
    exact goTo_announces _ (by simp)

/-- An operation that starts with a response announces a rejection with 0, a success, or a poll that has timed out. -/
theorem Starts.announces {u t : State} (h : Starts u t) : t.seq.AnnouncesErrorsWithZero := by
  cases h with
  | rejected => exact reply_zero _ u
  | init => exact reply_success 0 _
  | poll => exact pollStart_announces _ _ u (goTo_announces u (by simp))
  | query => exact queryKey_announces u
  | writeBuffer => exact wbNextPage_announces _
  | readBuffer => exact rbNext_announces _
  | _ => exact goTo_announces u (by simp)

/-- A bus fault announces no response, and otherwise the event leaves SEQ alone. -/
theorem event_announces {s : State} (hf : s.faulted = false) (hs : s.seq.AnnouncesErrorsWithZero) :
    s.event.seq.AnnouncesErrorsWithZero := by
  rw [event_seq s hf]
  split
  · exact goTo_announces s (by simp)
  · exact hs

theorem settled_announces {s : State} (hs : s.seq.AnnouncesErrorsWithZero) :
    s.settled.seq.AnnouncesErrorsWithZero := by
  unfold State.settled
  split
  · exact hs
  · exact advance_announces hs

/-- Settles O54, by the principle for invariants: STATUS and RESULT come from the response SEQ announced, and every start
and every advance announces an error with 0. -/
theorem stepKeepsErrorsCarryZero : Obligations.StepKeepsErrorsCarryZero := by
  intro s t hs h
  refine step_inv (P := ErrorsCarryZero) ?reset ?pop ?take ?accept ?start ?respond ?event hs h
  case reset => exact fun u _ => ⟨fun _ => rfl, goTo_announces u (q := .idle) (by simp)⟩
  case pop => exact fun u hu => hu
  case take => exact fun u _ _ hu _ => hu
  case accept => exact fun u _ _ hu _ => hu
  case start =>
    intro u v _ _ ⟨hgiven, _⟩ hstart
    exact ⟨by rwa [hstart.status_eq, hstart.result_eq], hstart.announces⟩
  case respond =>
    intro u st res ⟨_, hcoming⟩ hq
    exact ⟨hcoming st res hq, goTo_announces u (q := .idle) (by simp)⟩
  case event =>
    intro u hf _ _ _ ⟨hgiven, hcoming⟩
    exact ⟨by simpa using hgiven, settled_announces (event_announces hf hcoming)⟩

end Sys2Proof.Machine
end

section
/-! The end of an operation: its last event, then the response (00_scope.md R12, R13, 30_encoding.md R104). -/

namespace Sys2Proof.Machine

/-- The state with the events `es` in the traces and observed by the device (20_memory.md R70). -/
def State.withEvents (es : List Event) (s : State) : State :=
  { s with device := s.device.seen s.params.aw es, trace := s.trace ++ es }

@[simp] theorem State.withEvents_nil (s : State) : s.withEvents [] = s := by
  simp [State.withEvents, Device.seen]

/-- Acceptance at an idle block, the events of the operation and the response are what `finished` names. -/
theorem accept_withEvents_respond {s : State} (op : BitVec 8) (f : Fields) (es : List Event) (st : Status)
    (res : BitVec 64) (hidle : s.seq = .idle) :
    ((s.accept op f).withEvents es).respond st res = s.finished op f es st res := by
  simp [State.withEvents, State.respond, State.accept, State.finished, State.latched, reqEvent, respEvent, hidle]

/-- A coming response is the next step when there is no hardware reset. -/
theorem step_reply {s : State} {st : Status} {res : BitVec 64} (hreset : s.resetPort = []) (hf : s.faulted = false) :
    step (s.reply st res) = .next (s.respond st res) := by
  have hanswer := step_respond (s := s.reply st res) (by simp [State.resetAsserted, hreset]) hf rfl
  rwa [popReset_eq_self (s := s.reply st res) hreset] at hanswer

/-- An event that ends an operation is followed by the response. -/
theorem run_last_event {s u : State} {st : Status} {res : BitVec 64} (hlast : step s = .next (u.reply st res))
    (hreset : u.resetPort = []) (hf : u.faulted = false) : run 2 s = .next (u.respond st res) :=
  (run_succ hlast).trans (run_succ (step_reply hreset hf))

/-- The write of WRITE16 (40_access_init.md R143) is its last event. -/
theorem step_wrCyc {s : State} (hquiet : s.Quiet) (hf : s.faulted = false) :
    step (s.goTo .wrCyc) = .next ((s.withEvents [wr s.a0 s.d]).reply .success 0) :=
  step_quiet (s := s.goTo .wrCyc) hquiet.1 hquiet.2 hf (by simp) (by simp)

/-- The read of READ16 (40_access_init.md R145) is its last event: the value goes to RDATA and is the result. -/
theorem step_rdCyc {s : State} {v : Cell} (hquiet : s.Quiet) (hf : s.faulted = false)
    (hv : v = s.device.answer s.params.aw s.busTrace s.a0) :
    step (s.goTo .rdCyc) =
      .next (State.reply .success (resultOfCell v) { s.withEvents [rd s.a0 v] with rdata := v }) := by
  rw [hv]
  exact step_quiet (s := s.goTo .rdCyc) hquiet.1 hquiet.2 hf (by simp) (by simp)

end Sys2Proof.Machine
end

section
/-! INIT, WRITE16 and READ16 (40_access_init.md R140, R143, R145). -/

namespace Sys2Proof.Machine

/-- Settles O17: an even address is admitted, with a base or without, and the response follows the one write. -/
theorem write16MakesOneWrite : Obligations.Write16MakesOneWrite := by
  intro s f hready hquiet
  have ⟨hidle, hf⟩ := hready
  constructor
  · intro heven
    refine ⟨_, request_admitted (admits := admitsAddress) hready heven, ?_⟩
    calc run 2 ((s.accept Opcode.write16 f).goTo .wrCyc)
      _ = .next (((s.accept Opcode.write16 f).withEvents [wr f.a0 f.d]).respond .success 0) :=
        run_last_event (step_wrCyc hquiet hf) hquiet.2 hf
      _ = .next (s.finished 0x02 f [wr f.a0 f.d] .success 0) :=
        congrArg _ (accept_withEvents_respond _ _ _ _ _ hidle)
  · intro hodd
    exact turnedAway_of_request (admits := admitsAddress) rfl hready hquiet.2 hodd

/-- Settles O18: an even address is admitted, with a base or without, and the response follows the one read, whose value
is the device's answer after the bus trace so far: acceptance is no bus event. -/
theorem read16ReturnsTheCell : Obligations.Read16ReturnsTheCell := by
  intro s f hready hquiet
  have ⟨hidle, hf⟩ := hready
  constructor
  · intro heven
    refine ⟨_, _, request_admitted (admits := admitsAddress) hready heven, rfl, ?_⟩
    generalize hv : s.device.answer s.params.aw s.busTrace f.a0 = v
    have hread : step ((s.accept Opcode.read16 f).goTo .rdCyc) = _ :=
      step_rdCyc (v := v) hquiet hf (by simp [hv])
    calc run 2 ((s.accept Opcode.read16 f).goTo .rdCyc)
      _ = .next { ((s.accept Opcode.read16 f).withEvents [rd f.a0 v]).respond .success (v.zeroExtend 64) with
            rdata := v } := run_last_event hread hquiet.2 hf
      _ = .next { s.finished 0x03 f [rd f.a0 v] .success (v.zeroExtend 64) with rdata := v } := by
        rw [accept_withEvents_respond _ _ _ _ _ hidle]
        rfl
  · intro hodd
    exact turnedAway_of_request (admits := admitsAddress) rfl hready hquiet.2 hodd

/-- INIT writes BASE and BASE_VALID on acceptance (log 18), and its response is next. -/
theorem exec_init (f : Fields) (s : State) :
    exec (.init f) s =
      request Opcode.init f admitsInit (fun t => State.reply .success 0 { t with base := t.a0, baseValid := true }) s :=
  rfl

/-- Settles O16: INIT is admitted exactly without a base and with an even operand, and its response is the next step. -/
theorem initSetsBaseOnce : Obligations.InitSetsBaseOnce := by
  intro s f hready hreset
  have ⟨hidle, hf⟩ := hready
  constructor
  · intro hinvalid heven
    have hadmitted : admitsInit (s.accept Opcode.init f) = true := by
      simp [admitsInit, hinvalid, heven]
    refine ⟨_, (exec_init f s).trans (request_admitted hready hadmitted), ?_⟩
    calc step (State.reply .success 0 { s.accept Opcode.init f with base := f.a0, baseValid := true })
      _ = .next { (s.accept Opcode.init f).respond .success 0 with base := f.a0, baseValid := true } :=
        step_reply (s := { s.accept Opcode.init f with base := f.a0, baseValid := true }) hreset hf
      _ = .next { s.finished 0x01 f [] .success 0 with base := f.a0, baseValid := true } := by
        rw [← accept_withEvents_respond _ _ _ _ _ hidle, State.withEvents_nil]
        rfl
  · intro hbad
    have hturned : admitsInit (s.accept Opcode.init f) = false := by
      obtain hvalid | hodd := hbad
      · simp [admitsInit, hvalid]
      · simp [admitsInit, hodd]
    exact turnedAway_of_request (exec_init f s) hready hreset hturned

end Sys2Proof.Machine
end

section
/-! Every privileged command follows a fresh two-cycle unlock (41_unlock_reset.md R160, R162, 44_program_erase.md R261). -/

namespace Sys2Proof.Machine

/-- A position that emits no command cycle, or the first of an unlock, rests on no unlock before it. -/
def Seq.NeedsNoUnlock (q : Seq) : Prop := q.cycle = none ∨ q.cycle = some .unlock1

theorem FreshlyUnlocked.of_needsNoUnlock {s : State} (h : s.seq.NeedsNoUnlock) : FreshlyUnlocked s := by
  obtain h | h := h <;> simp [FreshlyUnlocked, Seq.isUnlock2, Seq.isPrivileged, h]

theorem wbNextPage_needsNoUnlock (s : State) : (wbNextPage s).seq.NeedsNoUnlock := by
  unfold wbNextPage
  split
  · split
    · exact .inr rfl
    · exact .inl rfl
  · exact .inr rfl

theorem rbNext_needsNoUnlock (s : State) : (rbNext s).seq.NeedsNoUnlock := by
  unfold rbNext
  repeat' split
  all_goals exact .inl rfl

theorem queryKey_needsNoUnlock (s : State) : (queryKey s).seq.NeedsNoUnlock := by
  unfold queryKey
  split
  · exact .inl rfl
  iterate 4 exact .inr rfl
  · exact .inl rfl

/-- POLL starts with a read, or has already timed out. -/
theorem pollStart_needsNoUnlock (a : Nat) (v : Cell) (s : State) : (pollStart .pollRd a v s).seq.NeedsNoUnlock := by
  unfold pollStart pollTest
  split <;> exact .inl rfl

/-- An operation that writes commands starts with the first cycle of an unlock. -/
theorem Starts.needsNoUnlock {u t : State} (h : Starts u t) : t.seq.NeedsNoUnlock := by
  cases h with
  | rejected | init | write16 | read16 => exact .inl rfl
  | poll => exact pollStart_needsNoUnlock _ _ u
  | query => exact queryKey_needsNoUnlock u
  | writeBuffer => exact wbNextPage_needsNoUnlock _
  | readBuffer => exact rbNext_needsNoUnlock _
  | _ => exact .inr rfl

/-! The origin of an unlock. -/

/-- Outside a page of WRITE_BUFFER the unlock's origin is BASE. -/
theorem unlockOrigin_of_outside {s : State} (h : s.seq.inPage = false) : s.unlockOrigin = s.base := by
  have hne : ¬(s.seq = .wbU1 ∨ s.seq = .wbU2) := by rintro (hq | hq) <;> simp [hq, Seq.inPage] at h
  exact if_neg hne

/-- The unlock cycles of a page are its first two. -/
theorem unlock_inPage {q : Seq} (hk : q.cycle = some .unlock1 ∨ q.cycle = some .unlock2) (hpage : q.inPage = true) :
    q = .wbU1 ∨ q = .wbU2 := by
  cases q <;> simp [Seq.inPage, Seq.cycle] at hk hpage ⊢

/-- The origin an unlock cycle is written at is the one its command rests on. -/
theorem unlockOrigin_eq_freshOrigin {s : State}
    (hk : s.seq.cycle = some .unlock1 ∨ s.seq.cycle = some .unlock2) : s.unlockOrigin = s.freshOrigin := by
  cases hpage : s.seq.inPage
  · simp [unlockOrigin_of_outside hpage, State.freshOrigin, hpage]
  · simp [State.unlockOrigin, State.freshOrigin, unlock_inPage hk hpage, hpage]

/-- The event and a move of SEQ that stays inside or outside a page leave the origin. -/
theorem freshOrigin_goTo_event {s : State} {q : Seq} (hpage : q.inPage = s.seq.inPage) :
    (s.event.goTo q).freshOrigin = s.freshOrigin := by
  simp [State.freshOrigin, State.wbOrigin, hpage]

/-! The bus trace from one cycle of the sequence to the next. -/

/-- The first cycle of an unlock is the last bus event before the second. -/
theorem event_after_unlock1 {s : State} (hk : s.seq.cycle = some .unlock1) :
    s.event.busTrace = s.busTrace ++ [.w (s.plus s.freshOrigin 0xAAA) 0x00AA] := by
  rw [event_busTrace_cycle hk, State.cycleAddr, unlockOrigin_eq_freshOrigin (.inl hk)]
  rfl

/-- Both cycles of an unlock are the last bus events before its command. -/
theorem event_after_unlock2 {s : State} (hs : FreshlyUnlocked s) (hk : s.seq.cycle = some .unlock2) :
    ∃ bt, s.event.busTrace =
      bt ++ [.w (s.plus s.freshOrigin 0xAAA) 0x00AA, .w (s.plus s.freshOrigin 0x554) 0x0055] := by
  obtain ⟨hfirst, _⟩ := hs
  obtain ⟨bt, hbt⟩ := hfirst (by simp [Seq.isUnlock2, hk])
  refine ⟨bt, ?_⟩
  rw [event_busTrace_cycle hk, State.cycleAddr, unlockOrigin_eq_freshOrigin (.inr hk), hbt, List.append_assoc]
  rfl

/-- The unlock and the ID-read entry, all at BASE, are the last bus events before the query mode entry. -/
theorem event_after_idEntry {s : State} (hs : FreshlyUnlocked s) (hk : s.seq.cycle = some .idEntry)
    (hpage : s.seq.inPage = false) :
    ∃ bt, s.event.busTrace =
      bt ++ [.w (s.at 0xAAA) 0x00AA, .w (s.at 0x554) 0x0055, .w (s.at 0xAAA) 0x0090] := by
  have horigin : s.freshOrigin = s.base := by simp [State.freshOrigin, hpage]
  obtain ⟨_, hboth, _⟩ := hs
  obtain ⟨bt, hbt⟩ := hboth (by simp [Seq.isPrivileged, hk])
  refine ⟨bt, ?_⟩
  rw [event_busTrace_cycle hk, hbt, horigin, List.append_assoc]
  rfl

/-- SEQ comes to a cycle that rests on an unlock only from the cycle before it. -/
theorem advance_event_freshlyUnlocked {s : State} (hseq : s.event.seq = s.seq) (hs : FreshlyUnlocked s) :
    FreshlyUnlocked (advance s.event) := by
  obtain ⟨hsecond, hcommand, hquery⟩ := advance_to_cycle s.event
  rw [hseq] at hsecond hcommand hquery
  refine ⟨fun hq => ?second, fun hq => ?command, fun hq => ?query⟩
  case second =>
    obtain ⟨hk, hpage, hgo⟩ := hsecond hq
    have horigin : (advance s.event).freshOrigin = s.freshOrigin := hgo ▸ freshOrigin_goTo_event hpage
    exact ⟨_, by simpa [horigin] using event_after_unlock1 hk⟩
  case command =>
    obtain ⟨hk, hpage, hgo⟩ := hcommand hq
    have horigin : (advance s.event).freshOrigin = s.freshOrigin := hgo ▸ freshOrigin_goTo_event hpage
    simpa [horigin] using event_after_unlock2 hs hk
  case query =>
    obtain ⟨hk, hpage, hgo⟩ := hquery hq
    have hbase : (advance s.event).base = s.base := (congrArg State.base hgo).trans (event_base s)
    simpa [hbase] using event_after_idEntry hs hk hpage

/-- Settles O56, by the principle for invariants: a reset, an acceptance, a response and the start of an operation lead to
no cycle that rests on an unlock, nor does a bus fault; otherwise the event just made is the one the next cycle rests
on. -/
theorem stepKeepsFreshUnlock : Obligations.StepKeepsFreshUnlock := by
  intro s t hs h
  refine step_inv (P := FreshlyUnlocked) ?reset ?pop ?take ?accept ?start ?respond ?event hs h
  case reset => exact fun u _ => .of_needsNoUnlock (.inl rfl)
  case pop => exact fun u hu => hu
  case take => exact fun u _ _ hu _ => hu
  case accept => exact fun u _ _ _ hidle => .of_needsNoUnlock (.inl (by simp [hidle, Seq.cycle]))
  case start => exact fun u v _ _ _ hstart => .of_needsNoUnlock hstart.needsNoUnlock
  case respond => exact fun u _ _ _ _ => .of_needsNoUnlock (.inl rfl)
  case event =>
    intro u hf _ _ _ hu
    have hseq := event_seq u hf
    unfold State.settled
    split at hseq
    next hfaulted =>
      rw [if_pos hfaulted]
      exact .of_needsNoUnlock (.inl (by rw [hseq]; rfl))
    next hrunning =>
      rw [if_neg hrunning]
      exact advance_event_freshlyUnlocked hseq hu

end Sys2Proof.Machine
end

section
/-! The cycles of an unlock and of a reset at every position that emits them (41_unlock_reset.md R160, R163, 10_state.md
R30). -/

namespace Sys2Proof.Machine

theorem exec_cycUnlock1 {s : State} {q : Seq} (hf : s.faulted = false) (hfault : s.busFaulting = false)
    (hgo : s.seq.GoesOn .unlock1 q) :
    exec .cycUnlock1 s = .next (s.cycled (s.plus s.unlockOrigin 0xAAA) 0x00AA q) :=
  exec_cycle_goesOn hf hfault hgo (by simp [State.cycleInstr, hgo.1]) (by decide)

theorem exec_cycUnlock2 {s : State} {q : Seq} (hf : s.faulted = false) (hfault : s.busFaulting = false)
    (hgo : s.seq.GoesOn .unlock2 q) :
    exec .cycUnlock2 s = .next (s.cycled (s.plus s.unlockOrigin 0x554) 0x0055 q) :=
  exec_cycle_goesOn hf hfault hgo (by simp [State.cycleInstr, hgo.1]) (by decide)

/-- The unlock cycles of a page are written at the origin that `WB_UNLOCK_ORIGIN` names (44_program_erase.md R261). -/
theorem unlockOrigin_of_page {s : State} (h : s.seq = .wbU1 ∨ s.seq = .wbU2) :
    s.unlockOrigin = s.pageOrigin s.paddr :=
  (if_pos h).trans (wbOrigin_eq s)

/-- Settles O35: each of these positions emits its cycle and SEQ only moves on; the origin is BASE outside a page. -/
theorem unlockCyclesInEveryPhase : Obligations.UnlockCyclesInEveryPhase := by
  intro s hf hfault
  refine ⟨?first, ?pageFirst, ?second, ?pageSecond⟩
  case first =>
    intro p q hpq hq
    obtain ⟨hgo, hpage⟩ : p.GoesOn .unlock1 q ∧ p.inPage = false := by
      simp only [List.mem_cons, List.not_mem_nil, or_false, Prod.mk.injEq] at hpq
      casesm* _ ∨ _
      all_goals
        obtain ⟨rfl, rfl⟩ := hpq
        exact ⟨⟨rfl, fun u hu => by simp only [advance, hu, rstNext, rqfNext]⟩, rfl⟩
    subst hq
    rw [exec_cycUnlock1 hf hfault hgo, unlockOrigin_of_outside hpage]
    rfl
  case pageFirst =>
    intro hq
    have hgo : s.seq.GoesOn .unlock1 .wbU2 := hq ▸ ⟨rfl, fun u hu => by simp only [advance, hu]⟩
    rw [exec_cycUnlock1 hf hfault hgo, unlockOrigin_of_page (.inl hq)]
  case second =>
    intro p q hpq hq
    obtain ⟨hgo, hpage⟩ : p.GoesOn .unlock2 q ∧ p.inPage = false := by
      simp only [List.mem_cons, List.not_mem_nil, or_false, Prod.mk.injEq] at hpq
      casesm* _ ∨ _
      all_goals
        obtain ⟨rfl, rfl⟩ := hpq
        exact ⟨⟨rfl, fun u hu => by simp only [advance, hu, rstNext, rqfNext, State.reply]⟩, rfl⟩
    subst hq
    rw [exec_cycUnlock2 hf hfault hgo, unlockOrigin_of_outside hpage]
    rfl
  case pageSecond =>
    intro hq
    have hgo : s.seq.GoesOn .unlock2 .wbLoad := hq ▸ ⟨rfl, fun u hu => by simp only [advance, hu]⟩
    rw [exec_cycUnlock2 hf hfault hgo, unlockOrigin_of_page (.inr hq)]

/-- The reset cycle writes 0xF0 at BASE itself, and SEQ advances. -/
theorem exec_cycReset {s : State} {q : Seq} (hf : s.faulted = false) (hfault : s.busFaulting = false)
    (hq : s.seq = q) (hk : q.cycle = some .reset) :
    exec .cycReset s = .next (advance (s.cycled s.base 0x00F0 q)) := by
  subst hq
  exact exec_cycle hf hfault hk (by simp [State.cycleInstr, hk])

/-- Settles O36: after the write, advancing from each of these positions gives the response or position named. -/
theorem resetCycleInEveryPhase : Obligations.ResetCycleInEveryPhase := by
  intro s hf hfault
  refine ⟨?rst, ?mid, ?did, ?rqf, ?gbsLow, ?gbsHigh, ?wp, ?erFirst, ?er, ?wbAbort, ?wb⟩
  case gbsHigh =>
    exact fun hq => ⟨blockSize s.qlow s.rdata, blockSize_toNat .., exec_cycReset hf hfault hq rfl⟩
  all_goals exact fun hq => exec_cycReset hf hfault hq rfl

end Sys2Proof.Machine
end

section
/-! The unlock and the reset sequence, run from their first cycle; UNLOCK and RESET are these alone (41_unlock_reset.md
R160 to R164). -/

namespace Sys2Proof.Machine

@[simp] theorem State.withEvents_withEvents (x y : List Event) (s : State) :
    (s.withEvents x).withEvents y = s.withEvents (x ++ y) := by
  simp [State.withEvents, Device.seen_append]

/-- Only a data cycle writes a register before its bus write. -/
theorem beforeCycle_of_ne_data {k : CycleKind} (s : State) (hdata : k ≠ .data) : s.beforeCycle k = s := by
  unfold State.beforeCycle
  split
  · exact absurd rfl hdata
  · rfl

/-- While the platform signals nothing, a cycle is its write and the move of SEQ. -/
theorem cycled_of_quiet {s : State} (hquiet : s.Quiet) (p q : Seq) (a : Nat) (v : Cell) :
    (s.goTo p).cycled a v q = (s.withEvents [wr a v]).goTo q := by
  obtain ⟨hport, _⟩ := hquiet
  simp [State.cycled, State.goTo, State.withEvents, Device.seen, wr, hport]

/-- The step at the position of a command cycle other than a data cycle: its write, then SEQ advances. -/
theorem step_cycle {s : State} {p : Seq} {k : CycleKind} (hquiet : s.Quiet) (hf : s.faulted = false)
    (hk : p.cycle = some k) (hdata : k ≠ .data) :
    step (s.goTo p) =
      .next (advance ((s.withEvents [wr ((s.goTo p).cycleAddr k) ((s.goTo p).cycleValue k)]).goTo p)) := by
  have ⟨hfaultPort, hresetPort⟩ := hquiet
  obtain ⟨i, _, hi, _⟩ := cycleInstr_encode (s := s.goTo p) hk
  calc step (s.goTo p)
    _ = exec i (s.goTo p).popReset :=
      stepRunsNamedCycle (s.goTo p) i hf (by simp [State.resetAsserted, hresetPort]) hi
    _ = exec i (s.goTo p) := by rw [popReset_eq_self (s := s.goTo p) hresetPort]
    _ = _ := by
      rw [exec_cycle (s := s.goTo p) hf (by simp [State.busFaulting, hfaultPort]) hk hi,
        beforeCycle_of_ne_data _ hdata, cycled_of_quiet hquiet, State.goTo_seq]

/-- The step at such a position that only moves SEQ. -/
theorem step_goesOn {s : State} {p q : Seq} {k : CycleKind} (hquiet : s.Quiet) (hf : s.faulted = false)
    (hgo : p.GoesOn k q) (hdata : k ≠ .data) :
    step (s.goTo p) =
      .next ((s.withEvents [wr ((s.goTo p).cycleAddr k) ((s.goTo p).cycleValue k)]).goTo q) := by
  obtain ⟨hk, hadvance⟩ := hgo
  rw [step_cycle hquiet hf hk hdata, hadvance _ rfl]
  rfl

theorem step_unlock1 {s : State} {p q : Seq} (hquiet : s.Quiet) (hf : s.faulted = false) (hgo : p.GoesOn .unlock1 q)
    (hpage : p.inPage = false) :
    step (s.goTo p) = .next ((s.withEvents [wr (s.at 0xAAA) 0x00AA]).goTo q) := by
  rw [step_goesOn hquiet hf hgo (by decide), State.cycleAddr, unlockOrigin_of_outside (s := s.goTo p) hpage]
  rfl

theorem step_unlock2 {s : State} {p q : Seq} (hquiet : s.Quiet) (hf : s.faulted = false) (hgo : p.GoesOn .unlock2 q)
    (hpage : p.inPage = false) :
    step (s.goTo p) = .next ((s.withEvents [wr (s.at 0x554) 0x0055]).goTo q) := by
  rw [step_goesOn hquiet hf hgo (by decide), State.cycleAddr, unlockOrigin_of_outside (s := s.goTo p) hpage]
  rfl

/-- `Unlock(BASE)` (R160), from its first cycle to the position that follows it. -/
theorem run_unlock {s : State} {p₁ p₂ q : Seq} (hquiet : s.Quiet) (hf : s.faulted = false)
    (hgo₁ : p₁.GoesOn .unlock1 p₂) (hgo₂ : p₂.GoesOn .unlock2 q) (hpage₁ : p₁.inPage = false)
    (hpage₂ : p₂.inPage = false) :
    run 2 (s.goTo p₁) = .next ((s.withEvents (unlockEvents s.params.aw s.base)).goTo q) := by
  have hsecond := step_unlock2 (s := s.withEvents [wr (s.at 0xAAA) 0x00AA]) hquiet hf hgo₂ hpage₂
  rw [run_succ (step_unlock1 hquiet hf hgo₁ hpage₁), run_succ hsecond, State.withEvents_withEvents]
  rfl

/-- The positions `phase` are those of a reset sequence (R163) that ends with `done`. -/
def ResetPhase (phase : Rst → Seq) (done : State → State) : Prop :=
  ∀ r, (phase r).cycle = some r.cycle ∧ (phase r).inPage = false ∧
    ∀ u : State, u.seq = phase r → advance u = rstNext phase done r u

/-- `ResetSeq()` (R163), from its first cycle to its end. -/
theorem run_resetSeq {s : State} {phase : Rst → Seq} {done : State → State} (hquiet : s.Quiet) (hf : s.faulted = false)
    (hphase : ResetPhase phase done) :
    run 3 (s.goTo (phase .u1)) =
      .next (done ((s.withEvents (resetEvents s.params.aw s.base)).goTo (phase .f0))) := by
  obtain ⟨hk₁, hpage₁, hnext₁⟩ := hphase .u1
  obtain ⟨hk₂, hpage₂, hnext₂⟩ := hphase .u2
  obtain ⟨hk₃, _, hnext₃⟩ := hphase .f0
  have hunlock := run_unlock hquiet hf ⟨hk₁, hnext₁⟩ ⟨hk₂, hnext₂⟩ hpage₁ hpage₂
  have hreset := step_cycle (s := s.withEvents (unlockEvents s.params.aw s.base)) hquiet hf hk₃ (by decide)
  rw [run_add (n := 1) hunlock, run_succ hreset, hnext₃ _ rfl, State.withEvents_withEvents]
  rfl

/-- An operation that comes to its response has, one step later, only made its events (R104). -/
theorem run_finished {s t : State} {op : BitVec 8} {f : Fields} {es : List Event} {st : Status} {res : BitVec 64}
    {n : Nat} (hready : s.Ready) (hreset : s.resetPort = [])
    (h : run n t = .next (((s.accept op f).withEvents es).reply st res)) :
    run (n + 1) t = .next (s.finished op f es st res) := by
  obtain ⟨hidle, hf⟩ := hready
  have hanswer := step_reply (s := (s.accept op f).withEvents es) (st := st) (res := res) hreset hf
  rw [run_add h, run_succ hanswer, accept_withEvents_respond op f es st res hidle]
  rfl

theorem unlU1_goesOn : Seq.unlU1.GoesOn .unlock1 .unlU2 := ⟨rfl, fun u hu => by simp only [advance, hu]⟩

theorem unlU2_goesOn : Seq.unlU2.GoesOn .unlock2 (.respond .success 0) :=
  ⟨rfl, fun u hu => by simp only [advance, hu, State.reply]⟩

/-- Settles O19: with a base UNLOCK is admitted, and the response follows the unlock. -/
theorem unlockMakesTwoWrites : Obligations.UnlockMakesTwoWrites := by
  intro s f hready hquiet
  have ⟨_, hf⟩ := hready
  constructor
  · intro hvalid
    have hunlock := run_unlock (s := s.accept Opcode.unlock f) hquiet hf unlU1_goesOn unlU2_goesOn rfl rfl
    exact ⟨_, request_admitted (admits := admitsBase) hready hvalid, run_finished hready hquiet.2 hunlock⟩
  · intro hinvalid
    exact turnedAway_of_request (admits := admitsBase) rfl hready hquiet.2 hinvalid

theorem rst_resetPhase : ResetPhase .rst (State.reply .success 0) :=
  fun _ => ⟨rfl, rfl, fun u hu => by simp only [advance, hu]⟩

/-- Settles O20: with a base RESET is admitted, and the response follows the reset sequence. -/
theorem resetMakesThreeWrites : Obligations.ResetMakesThreeWrites := by
  intro s f hready hquiet
  have ⟨_, hf⟩ := hready
  constructor
  · intro hvalid
    have hreset := run_resetSeq (s := s.accept Opcode.reset f) hquiet hf rst_resetPhase
    exact ⟨_, request_admitted (admits := admitsBase) hready hvalid, run_finished hready hquiet.2 hreset⟩
  · intro hinvalid
    exact turnedAway_of_request (admits := admitsBase) rfl hready hquiet.2 hinvalid

end Sys2Proof.Machine
end

section
/-! POLL: the poll loop alone, then its outcome as the response (42_poll.md R181, R183). -/

namespace Sys2Proof.Machine

/-- The response to POLL is the poll's outcome; no other event comes before it (R183). -/
theorem pollReturn_pollRd {s : State} (ok : Bool) (hq : s.seq = .pollRd) :
    pollReturn ok s = State.reply (pollStatus ok) 0 { s with pres := ok } := by
  simp only [pollReturn, hq]

/-- The registers as POLL leaves them: the loop's target and expected value, the number of reads, the value read last and
the outcome (10_state.md R27). -/
def State.withPoll (a : Nat) (e : Cell) (vs : List Cell) (ok : Bool) (s : State) : State :=
  { s with
    ptgt := a
    expect := e
    pollCnt := BitVec.ofNat 32 vs.length
    rdata := vs.getLastD s.rdata
    pres := ok }

/-- The poll loop of POLL, from its start to the coming response: only reads of the target, and the loop's registers. -/
theorem run_pollRd {s : State} (a : Nat) (e : Cell) (hquiet : s.Quiet) (hf : s.faulted = false) :
    ∃ vs ok, PollEnds s.params.pollCeiling.toNat e vs ok ∧
      run vs.length (pollStart .pollRd a e s) =
        .next (((s.withPoll a e vs ok).withEvents (vs.map (rd a))).reply (pollStatus ok) 0) := by
  obtain ⟨vs, ok, hends, hrun⟩ := run_pollStart .pollRd a e hquiet.1 hquiet.2 hf rfl
  refine ⟨vs, ok, hends, hrun.trans ?_⟩
  rw [pollReturn_pollRd ok rfl]
  simp [State.polled, State.withPoll, State.withEvents, State.reply, State.goTo]

/-- Settles O21: an even address is admitted, with a base or without; the loop ends as R181 says, with `POLL_CEILING = 0`
at once, and the response follows its reads. -/
theorem pollReadsUntilEqualOrCeiling : Obligations.PollReadsUntilEqualOrCeiling := by
  intro s f hready hquiet
  have ⟨_, hf⟩ := hready
  constructor
  · intro heven
    obtain ⟨vs, ok, hends, hloop⟩ := run_pollRd (s := s.accept Opcode.poll f) f.a0 f.d hquiet hf
    exact ⟨_, vs, ok, request_admitted (admits := admitsAddress) hready heven, hends,
      run_finished (s := s.withPoll f.a0 f.d vs ok) hready hquiet.2 hloop⟩
  · intro hodd
    exact turnedAway_of_request (admits := admitsAddress) rfl hready hquiet.2 hodd

end Sys2Proof.Machine
end

section
/-! KIND after acceptance: no event and no decision of the block reads it (42_poll.md R182). -/

namespace Sys2Proof.Machine

/-- The state with another KIND latched. -/
def State.withKind (k : BitVec 2) (s : State) : State := { s with kind := k }

@[simp] theorem State.withKind_seq (k : BitVec 2) (s : State) : (s.withKind k).seq = s.seq := rfl

@[simp] theorem State.withKind_rdata (k : BitVec 2) (s : State) : (s.withKind k).rdata = s.rdata := rfl

@[simp] theorem State.withKind_stopped (k : BitVec 2) (s : State) : (s.withKind k).stopped = s.stopped := rfl

@[simp] theorem State.withKind_comingRead (k : BitVec 2) (s : State) : (s.withKind k).comingRead = s.comingRead := rfl

/-- A change of the state neither reads nor writes KIND: whatever KIND was latched, it does the same to the rest. -/
def IgnoresKind (g : State → State) : Prop := ∀ k s, g (s.withKind k) = (g s).withKind k

theorem goTo_ignoresKind (q : Seq) : IgnoresKind (State.goTo q) := fun _ _ => rfl

theorem reply_ignoresKind (st : Status) (res : BitVec 64) : IgnoresKind (State.reply st res) := fun _ _ => rfl

/-- A decision that does not depend on KIND, between two changes that ignore it. -/
theorem IgnoresKind.ite {c : State → Prop} [DecidablePred c] {g h : State → State}
    (hc : ∀ k s, c (s.withKind k) ↔ c s) (hg : IgnoresKind g) (hh : IgnoresKind h) :
    IgnoresKind (fun s => if c s then g s else h s) := by
  intro k s
  simp only [hc, hg k s, hh k s]
  split <;> rfl

/-! ## The decisions between two events -/

theorem rstNext_ignoresKind {done : State → State} (phase : Rst → Seq) (r : Rst) (hdone : IgnoresKind done) :
    IgnoresKind (rstNext phase done r) := by
  cases r with
  | u1 | u2 => exact goTo_ignoresKind _
  | f0 => exact hdone

theorem rqfNext_ignoresKind {done : State → State} (phase : Rqf → Seq) (p : Rqf) (hdone : IgnoresKind done) :
    IgnoresKind (rqfNext phase done p) := by
  cases p with
  | u1 | u2 | enter | cfi => exact goTo_ignoresKind _
  | read => exact .ite (fun _ _ => .rfl) (goTo_ignoresKind _) hdone
  | rst r => exact rstNext_ignoresKind (fun q => phase (.rst q)) r hdone

theorem wbNextPage_ignoresKind : IgnoresKind wbNextPage :=
  .ite (fun _ _ => .rfl) (.ite (fun _ _ => .rfl) (goTo_ignoresKind _) (reply_ignoresKind _ _)) (fun _ _ => rfl)

theorem wbPageDone_ignoresKind : IgnoresKind wbPageDone :=
  fun k s => wbNextPage_ignoresKind k { s with paddr := s.pageWord s.bw, rem := s.rem - s.bw.toNat }

theorem wbWordDone_ignoresKind : IgnoresKind wbWordDone :=
  .ite (fun _ _ => .rfl) (fun _ _ => rfl) (fun _ _ => rfl)

theorem rbNext_ignoresKind : IgnoresKind rbNext :=
  .ite (fun _ _ => .rfl) (reply_ignoresKind _ _)
    (.ite (fun _ _ => .rfl) (goTo_ignoresKind _) (goTo_ignoresKind _))

theorem pollReturn_ignoresKind (ok : Bool) : IgnoresKind (pollReturn ok) := by
  intro k s
  simp only [pollReturn, State.withKind_seq]
  split
  · rfl
  · rfl
  · cases ok with
    | false => rfl
    | true => exact wbPageDone_ignoresKind k { s with pres := true }
  · rfl

theorem pollTest_ignoresKind : IgnoresKind pollTest :=
  .ite (fun _ _ => .rfl) (pollReturn_ignoresKind false) (fun _ _ => rfl)

theorem pollStart_ignoresKind (site : Seq) (a : Nat) (v : Cell) : IgnoresKind (pollStart site a v) :=
  fun k s => pollTest_ignoresKind k { s with ptgt := a, expect := v, pollCnt := 0, seq := site }

theorem pollAfterRead_ignoresKind : IgnoresKind pollAfterRead :=
  .ite (fun _ _ => .rfl) (fun k s => pollReturn_ignoresKind true k { s with pollCnt := s.pollCnt + 1 })
    (fun k s => pollTest_ignoresKind k { s with pollCnt := s.pollCnt + 1 })

/-- SEQ advances without KIND: the polls of POLL, WORD_PROGRAM, ERASE_BLOCK and WRITE_BUFFER are one loop. -/
theorem advance_ignoresKind : IgnoresKind advance := by
  intro k s
  cases hq : s.seq <;> simp only [advance, State.withKind_seq, hq]
  case pollRd | wpPoll | erPoll | wbPoll => exact pollAfterRead_ignoresKind k s
  case wpData | erConfirm | wbConfirm => exact pollStart_ignoresKind _ _ _ k s
  case wbData => exact wbWordDone_ignoresKind k s
  case rbOut => exact rbNext_ignoresKind k s
  case erRst0 => exact rstNext_ignoresKind _ _ (goTo_ignoresKind _) k s
  case rst | midRst | didRst | wpRst | erRst | wbAbort | wbRst =>
    exact rstNext_ignoresKind _ _ (reply_ignoresKind _ _) k s
  case rqf | gbsHigh => exact rqfNext_ignoresKind _ _ (reply_ignoresKind _ _) k s
  case gbsLow => exact rqfNext_ignoresKind _ _ (fun _ _ => rfl) k s
  case didRead =>
    rw [State.withKind_rdata]
    split <;> rfl
  all_goals rfl

/-! ## The event -/

theorem endCycle_ignoresKind : IgnoresKind State.endCycle :=
  .ite (fun _ _ => .rfl) (fun _ _ => rfl) (fun _ _ => rfl)

theorem busWrite_ignoresKind (a : Nat) (v : Cell) : IgnoresKind (State.busWrite a v) := fun k s =>
  endCycle_ignoresKind k
    { s with trace := s.trace ++ [.bus (.w a v)], device := s.device.write s.params.aw a v }

theorem busRead_ignoresKind (a : Nat) : IgnoresKind (State.busRead a) := fun k s =>
  endCycle_ignoresKind k
    { s with
      rdata := s.readValue a
      trace := s.trace ++ [.bus (.r a (s.readValue a))]
      device := s.device.afterRead
      draws := if s.busFaulting then s.draws + 1 else s.draws }

theorem writeCycle_ignoresKind (c : CycleKind) : IgnoresKind (State.writeCycle c) := by
  intro k s
  have hwrite := busWrite_ignoresKind (s.cycleAddr c) (s.cycleValue c) k (s.beforeCycle c)
  cases c <;> exact hwrite

/-- The event of a busy block: its address and its value come from other registers. -/
theorem event_ignoresKind : IgnoresKind State.event := by
  intro k s
  simp only [State.event, State.withKind_seq, State.withKind_comingRead]
  cases s.seq.cycle with
  | some c => exact writeCycle_ignoresKind c k s
  | none =>
    cases s.comingRead with
    | some a => exact busRead_ignoresKind a k s
    | none =>
      cases s.seq
      case wrCyc => exact busWrite_ignoresKind _ _ k s
      all_goals rfl

theorem settled_ignoresKind : IgnoresKind State.settled :=
  .ite (fun _ _ => .rfl) (fun _ _ => rfl) advance_ignoresKind

/-! ## The step -/

/-- What a step of a busy block does, but for a hardware reset and a held bus fault: its response, or its event. -/
def State.busyStep (s : State) : State :=
  match s.seq with
  | .respond st res => s.respond st res
  | _ => s.event.settled

theorem step_eq_busyStep {s : State} (hidle : s.seq ≠ .idle) (hreset : s.resetAsserted = false) :
    step s = if s.stopped then .fault .busFault else .next s.popReset.busyStep := by
  have hstep : step s = stepEvent s.popReset := by simp [step, hreset]
  rw [hstep]
  split
  next hstopped => exact if_pos hstopped
  next hgoing =>
    have hstopped : s.popReset.stopped = false := Bool.eq_false_of_not_eq_true hgoing
    unfold State.busyStep
    split
    next hq => exact stepEvent_respond (Bool.or_eq_false_iff.mp hstopped).1 hq
    next hq => exact stepEvent_busy hstopped hidle hq

/-- The response carries no KIND, and neither does any other event or the decisions after it. -/
theorem busyStep_ignoresKind : IgnoresKind State.busyStep := by
  intro k s
  simp only [State.busyStep, State.withKind_seq]
  split
  · rfl
  · rw [event_ignoresKind, settled_ignoresKind]

/-- Settles O22: stopped by a bus fault, the block has no step with any KIND; going on, its step ignores KIND. -/
theorem kindNeverMatters : Obligations.KindNeverMatters := by
  intro s k hidle hreset
  change step (s.withKind k) = _
  rw [step_eq_busyStep (s := s.withKind k) hidle hreset, step_eq_busyStep hidle hreset, State.withKind_stopped]
  split
  · rfl
  · exact congrArg Host.Outcome.next (busyStep_ignoresKind k s.popReset)

end Sys2Proof.Machine
end

section
/-! Bus reads of an operation, and what leads to them and follows: the ID-read entry and the trailing reset
(43_ident_query.md R200, R208). -/

namespace Sys2Proof.Machine

/-- The state with the value read last in RDATA (10_state.md R27). -/
def State.withRdata (v : Cell) (s : State) : State := { s with rdata := v }

@[simp] theorem State.withRdata_rdata (v : Cell) (s : State) : (s.withRdata v).rdata = v := rfl

@[simp] theorem State.withRdata_withEvents (v : Cell) (es : List Event) (s : State) :
    (s.withEvents es).withRdata v = (s.withRdata v).withEvents es := rfl

@[simp] theorem State.withEvents_rdata (es : List Event) (s : State) : (s.withEvents es).rdata = s.rdata := rfl

@[simp] theorem State.withEvents_idacc (es : List Event) (s : State) : (s.withEvents es).idacc = s.idacc := rfl

/-- The step at a position that reads: the device's answer, whatever it is, goes to RDATA, and SEQ advances. -/
theorem step_read {s : State} {p : Seq} {a : Nat} (hquiet : s.Quiet) (hf : s.faulted = false) (hk : p.cycle = none)
    (hread : (s.goTo p).comingRead = some a) :
    ∃ v, step (s.goTo p) = .next (advance (((s.withRdata v).withEvents [rd a v]).goTo p)) := by
  have hidle : p ≠ .idle := by rintro rfl; simp [State.comingRead] at hread
  have hfault : p ≠ .faulted := by rintro rfl; simp [State.comingRead] at hread
  have hresp : ∀ st res, p ≠ .respond st res := by rintro st res rfl; simp [State.comingRead] at hread
  refine ⟨s.device.answer s.params.aw s.busTrace a, ?_⟩
  rw [step_quiet (s := s.goTo p) hquiet.1 hquiet.2 hf hidle hfault]
  unfold State.quietStep
  split
  next hq => exact absurd hq (hresp _ _)
  next =>
    simp only [State.quietEvent, State.goTo_seq, hk, hread]
    rfl

/-- The bus events of the ID-read entry with its unlock (R200). -/
def State.idEntryEvents (s : State) : List Event := unlockEvents s.params.aw s.base ++ [wr (s.at 0xAAA) 0x0090]

/-- The ID-read entry with its unlock, from the first cycle to the position that follows it. -/
theorem run_idEntry {s : State} {p₁ p₂ p₃ q : Seq} (hquiet : s.Quiet) (hf : s.faulted = false)
    (hgo₁ : p₁.GoesOn .unlock1 p₂) (hgo₂ : p₂.GoesOn .unlock2 p₃) (hgo₃ : p₃.GoesOn .idEntry q)
    (hpage₁ : p₁.inPage = false) (hpage₂ : p₂.inPage = false) :
    run 3 (s.goTo p₁) = .next ((s.withEvents s.idEntryEvents).goTo q) := by
  have hunlock := run_unlock hquiet hf hgo₁ hgo₂ hpage₁ hpage₂
  have hentry := step_goesOn (s := s.withEvents (unlockEvents s.params.aw s.base)) hquiet hf hgo₃ (by decide)
  rw [run_add (n := 1) hunlock, run_succ hentry, State.withEvents_withEvents]
  rfl

/-- The trailing reset by the parameter (R208), one step an event, before an end that sets SEQ itself. -/
theorem run_trailing {s : State} {phase : Rst → Seq} {done : State → State} (hquiet : s.Quiet) (hf : s.faulted = false)
    (hphase : ResetPhase phase done) (hdone : ∀ q u, done (State.goTo q u) = done u) :
    run (trailingEvents s).length (if s.params.trailingResetUnlisted then s.goTo (phase .u1) else done s) =
      .next (done (s.withEvents (trailingEvents s))) := by
  unfold trailingEvents
  split
  · exact (run_resetSeq hquiet hf hphase).trans (congrArg _ (hdone _ _))
  · rw [State.withEvents_nil]
    rfl

theorem trailingEvents_length (s : State) :
    (trailingEvents s).length = if s.params.trailingResetUnlisted then 3 else 0 := by
  unfold trailingEvents
  split <;> rfl

end Sys2Proof.Machine
end

section
/-! GET_MANUFACTURER_ID and GET_DEVICE_ID, and QUERY where it runs their positions (43_ident_query.md R200 to R205). -/

namespace Sys2Proof.Machine

/-- The first read in ID mode, with the entry before it. -/
theorem run_idRead {s : State} {p₁ p₂ p₃ p₄ : Seq} {a : Nat} (hquiet : s.Quiet) (hf : s.faulted = false)
    (hgo₁ : p₁.GoesOn .unlock1 p₂) (hgo₂ : p₂.GoesOn .unlock2 p₃) (hgo₃ : p₃.GoesOn .idEntry p₄)
    (hpage₁ : p₁.inPage = false) (hpage₂ : p₂.inPage = false) (hk : p₄.cycle = none)
    (hread : ((s.withEvents s.idEntryEvents).goTo p₄).comingRead = some a) :
    ∃ v, run 4 (s.goTo p₁) =
      .next (advance (((s.withRdata v).withEvents (s.idEntryEvents ++ [rd a v])).goTo p₄)) := by
  have hentry := run_idEntry hquiet hf hgo₁ hgo₂ hgo₃ hpage₁ hpage₂
  obtain ⟨v, hstep⟩ := step_read (s := s.withEvents s.idEntryEvents) hquiet hf hk hread
  refine ⟨v, ?_⟩
  rw [run_add (n := 1) hentry, run_succ hstep, ← State.withEvents_withEvents]
  rfl

/-- An operation that ends with a reset sequence and answers from its registers. -/
theorem run_resetSeq_finished {s : State} {phase : Rst → Seq} {answer : State → BitVec 64} {res : BitVec 64}
    (op : BitVec 8) (f : Fields) (es : List Event) (hready : s.Ready) (hquiet : s.Quiet)
    (hphase : ResetPhase phase (fun u => u.reply .success (answer u)))
    (hanswer : answer (((s.accept op f).withEvents (es ++ resetEvents s.params.aw s.base)).goTo (phase .f0)) = res) :
    run 4 (((s.accept op f).withEvents es).goTo (phase .u1)) =
      .next (s.finished op f (es ++ resetEvents s.params.aw s.base) .success res) := by
  have hreset := run_resetSeq (s := (s.accept op f).withEvents es) hquiet hready.2 hphase
  rw [State.withEvents_withEvents] at hreset
  rw [← hanswer]
  exact run_finished hready hquiet.2 hreset

theorem midU1_goesOn : Seq.midU1.GoesOn .unlock1 .midU2 := ⟨rfl, fun u hu => by simp only [advance, hu]⟩

theorem midU2_goesOn : Seq.midU2.GoesOn .unlock2 .midEnter := ⟨rfl, fun u hu => by simp only [advance, hu]⟩

theorem midRst_resetPhase : ResetPhase .midRst (fun u => u.reply .success (resultOfCell u.rdata)) :=
  fun _ => ⟨rfl, rfl, fun u hu => by simp only [advance, hu, rstNext]⟩

/-- The operation of R200, accepted under either operation code that runs it. -/
theorem run_midU1 {s : State} (op : BitVec 8) (f : Fields) (hready : s.Ready) (hquiet : s.Quiet) :
    ∃ v, run 8 ((s.accept op f).goTo .midU1) =
      .next ((s.withRdata v).finished op f
        (s.idEntryEvents ++ [rd (s.at s.params.mfrCellOffset) v] ++ resetEvents s.params.aw s.base)
        .success (v.zeroExtend 64)) := by
  have ⟨_, hf⟩ := hready
  obtain ⟨v, hread⟩ := run_idRead (s := s.accept op f) hquiet hf midU1_goesOn midU2_goesOn
    (idEntry_goesOn (q := .midRead) (by simp)) rfl rfl rfl rfl
  exact ⟨v, (run_add (n := 4) hread).trans
    (run_resetSeq_finished (s := s.withRdata v) op f _ hready hquiet midRst_resetPhase rfl)⟩

/-- Settles O23: with a base the request is admitted, and its positions are those of R200. -/
theorem manufacturerIdIsTheCell : Obligations.ManufacturerIdIsTheCell := by
  intro s f hready hquiet
  constructor
  · intro hvalid
    obtain ⟨v, hrun⟩ := run_midU1 Opcode.getManufacturerId f hready hquiet
    exact ⟨_, v, request_admitted (admits := admitsBase) hready hvalid, hrun⟩
  · intro hinvalid
    exact turnedAway_of_request (admits := admitsBase) rfl hready hquiet.2 hinvalid

/-- The state with the ID bytes gathered so far in IDACC (10_state.md R27). -/
def State.withIdacc (acc : BitVec 24) (s : State) : State := { s with idacc := acc }

@[simp] theorem State.withIdacc_idacc (acc : BitVec 24) (s : State) : (s.withIdacc acc).idacc = acc := rfl

@[simp] theorem State.withIdacc_withEvents (acc : BitVec 24) (es : List Event) (s : State) :
    (s.withEvents es).withIdacc acc = (s.withIdacc acc).withEvents es := rfl

theorem didU1_goesOn : Seq.didU1.GoesOn .unlock1 .didU2 := ⟨rfl, fun u hu => by simp only [advance, hu]⟩

theorem didU2_goesOn : Seq.didU2.GoesOn .unlock2 .didEnter := ⟨rfl, fun u hu => by simp only [advance, hu]⟩

theorem didRst_resetPhase : ResetPhase .didRst (fun u => u.reply .success (u.idacc.zeroExtend 64)) :=
  fun _ => ⟨rfl, rfl, fun u hu => by simp only [advance, hu, rstNext]⟩

/-- After the device cell the sentinel in its low byte decides whether two more cells are read (R203). -/
theorem advance_didRead (u : State) :
    advance (u.goTo .didRead) =
      if isSentinel u.rdata then (u.withIdacc (idLow u.rdata)).goTo .didExt1
      else (u.withIdacc (idLow u.rdata)).goTo (.didRst .u1) := rfl

theorem advance_didExt2 (u : State) :
    advance (u.goTo .didExt2) = (u.withIdacc (idHigh u.idacc u.rdata)).goTo (.didRst .u1) := rfl

theorem isSentinel_iff (v : Cell) : isSentinel v = true ↔ lowByte v = 0x7E#8 := by
  simp [isSentinel, Config.extIdSentinel]

/-- The two extended cells, whose low bytes go to the upper places of IDACC (R203). -/
theorem run_didExt1 {s : State} (hquiet : s.Quiet) (hf : s.faulted = false) :
    ∃ r1 r2, run 2 (s.goTo .didExt1) =
      .next ((((s.withRdata r2).withIdacc (idHigh (idMid s.idacc r1) r2)).withEvents
        [rd (s.at 0x1C) r1, rd (s.at 0x1E) r2]).goTo (.didRst .u1)) := by
  obtain ⟨r1, hfirst⟩ := step_read (s := s) (p := .didExt1) hquiet hf rfl rfl
  obtain ⟨r2, hsecond⟩ := step_read (p := .didExt2)
    (s := ((s.withRdata r1).withIdacc (idMid s.idacc r1)).withEvents [rd (s.at 0x1C) r1]) hquiet hf rfl rfl
  refine ⟨r1, r2, (run_succ hfirst).trans ((run_succ hsecond).trans ?_)⟩
  rw [advance_didExt2, State.withRdata_withEvents, State.withEvents_withEvents, State.withIdacc_withEvents]
  rfl

/-- The operation of R203 to R205, accepted under either operation code that runs it: one byte, or three. -/
theorem run_didU1 {s : State} (op : BitVec 8) (f : Fields) (hready : s.Ready) (hquiet : s.Quiet) :
    (∃ v : Cell, lowByte v ≠ 0x7E#8 ∧ run 8 ((s.accept op f).goTo .didU1) =
      .next (((s.withRdata v).withIdacc ((lowByte v).zeroExtend 24)).finished op f
        (s.idEntryEvents ++ [rd (s.at s.params.devCellOffset) v] ++ resetEvents s.params.aw s.base)
        .success ((lowByte v).zeroExtend 64))) ∨
    (∃ v r1 r2 : Cell, lowByte v = 0x7E#8 ∧ run 10 ((s.accept op f).goTo .didU1) =
      .next (((s.withRdata r2).withIdacc (lowByte r2 ++ lowByte r1 ++ 0x7E#8)).finished op f
        (s.idEntryEvents ++ [rd (s.at s.params.devCellOffset) v, rd (s.at 0x1C) r1, rd (s.at 0x1E) r2] ++
          resetEvents s.params.aw s.base)
        .success ((lowByte r2 ++ lowByte r1 ++ 0x7E#8).zeroExtend 64))) := by
  have ⟨_, hf⟩ := hready
  obtain ⟨v, hread⟩ := run_idRead (s := s.accept op f) (a := s.at s.params.devCellOffset) hquiet hf didU1_goesOn
    didU2_goesOn (idEntry_goesOn (q := .didRead) (by simp)) rfl rfl rfl rfl
  rw [advance_didRead, State.withEvents_rdata, State.withRdata_rdata] at hread
  by_cases hlow : lowByte v = 0x7E#8
  case neg =>
    rw [if_neg (mt (isSentinel_iff v).mp hlow)] at hread
    have hreset := run_resetSeq_finished (s := (s.withRdata v).withIdacc (idLow v)) op f
      (s.idEntryEvents ++ [rd (s.at s.params.devCellOffset) v]) hready hquiet didRst_resetPhase rfl
    have hanswer : (idLow v).zeroExtend 64 = (lowByte v).zeroExtend 64 := by simp [idLow]
    exact .inl ⟨v, hlow, (run_add (n := 4) hread).trans (hanswer ▸ hreset)⟩
  case pos =>
    rw [if_pos ((isSentinel_iff v).mpr hlow), State.withIdacc_withEvents] at hread
    obtain ⟨r1, r2, hext⟩ := run_didExt1 hquiet hf (s := ((((s.accept op f).withRdata v).withIdacc (idLow v)).withEvents
      (s.idEntryEvents ++ [rd (s.at s.params.devCellOffset) v])))
    rw [State.withEvents_idacc, State.withIdacc_idacc, idHigh_idMid_idLow, hlow, State.withRdata_withEvents,
      State.withIdacc_withEvents, State.withEvents_withEvents, List.append_assoc] at hext
    have hreset := run_resetSeq_finished (s := (s.withRdata r2).withIdacc (lowByte r2 ++ lowByte r1 ++ 0x7E#8)) op f
      (s.idEntryEvents ++ [rd (s.at s.params.devCellOffset) v, rd (s.at 0x1C) r1, rd (s.at 0x1E) r2]) hready hquiet
      didRst_resetPhase rfl
    exact .inr ⟨v, r1, r2, hlow, (run_add (n := 6) hread).trans ((run_add (n := 4) hext).trans hreset)⟩

/-- Settles O24: with a base the request is admitted, and its positions are those of R203. -/
theorem deviceIdIsOneOrThreeBytes : Obligations.DeviceIdIsOneOrThreeBytes := by
  intro s f hready hquiet
  constructor
  · intro hvalid
    exact ⟨_, request_admitted (admits := admitsBase) hready hvalid, run_didU1 Opcode.getDeviceId f hready hquiet⟩
  · intro hinvalid
    exact turnedAway_of_request (admits := admitsBase) rfl hready hquiet.2 hinvalid

end Sys2Proof.Machine
end

section
/-! The READ_QUERY_FIELD sequence: READ_QUERY_FIELD, GET_BLOCK_SIZE, which runs it twice, and QUERY where it runs their
positions (43_ident_query.md R207 to R211). -/

namespace Sys2Proof.Machine

/-- The positions `phase` are those of a READ_QUERY_FIELD sequence (R207) that ends with `done`, which sets SEQ
itself. -/
structure QueryPhase (phase : Rqf → Seq) (done : State → State) : Prop where
  cycle : ∀ p, (phase p).cycle = p.cycle
  inPage : ∀ p, (phase p).inPage = false
  next : ∀ p (u : State), u.seq = phase p → advance u = rqfNext phase done p u
  done_goTo : ∀ q u, done (State.goTo q u) = done u

/-- A position of the sequence before its read only moves SEQ on. -/
theorem QueryPhase.goesOn {phase : Rqf → Seq} {done : State → State} (h : QueryPhase phase done) {p q : Rqf}
    {k : CycleKind} (hk : p.cycle = some k) (hnext : ∀ u, rqfNext phase done p u = u.goTo (phase q)) :
    (phase p).GoesOn k (phase q) :=
  ⟨(h.cycle p).trans hk, fun u hu => (h.next p u hu).trans (hnext u)⟩

theorem QueryPhase.resetPhase {phase : Rqf → Seq} {done : State → State} (h : QueryPhase phase done) :
    ResetPhase (fun r => phase (.rst r)) done :=
  fun r => ⟨h.cycle (.rst r), h.inPage (.rst r), h.next (.rst r)⟩

/-- After the read the trailing reset follows, or the end (R208). -/
theorem QueryPhase.advance_read {phase : Rqf → Seq} {done : State → State} (h : QueryPhase phase done) (s : State) :
    advance (s.goTo (phase .read)) =
      if s.params.trailingResetUnlisted then s.goTo (phase (.rst .u1)) else done s := by
  rw [h.next .read _ rfl, ← h.done_goTo (phase .read) s]
  rfl

/-- The bus events of one READ_QUERY_FIELD sequence: its field is at `off` and answers `v` (R207, R208). -/
def State.queryEvents (off : Nat) (v : Cell) (s : State) : List Event :=
  s.idEntryEvents ++ [wr (s.at 0xAA) 0x0098, rd (s.at off) v] ++ trailingEvents s

/-- One READ_QUERY_FIELD sequence, from its first cycle to its end, one step an event. -/
theorem run_query {s : State} {phase : Rqf → Seq} {done : State → State} {off : Nat} (hquiet : s.Quiet)
    (hf : s.faulted = false) (hphase : QueryPhase phase done)
    (hread : ∀ es, ((s.withEvents es).goTo (phase .read)).comingRead = some (s.at off)) :
    ∃ v, run (5 + (trailingEvents s).length) (s.goTo (phase .u1)) =
      .next (done ((s.withRdata v).withEvents (s.queryEvents off v))) := by
  have hentry := run_idEntry hquiet hf (hphase.goesOn (p := .u1) rfl fun _ => rfl)
    (hphase.goesOn (p := .u2) rfl fun _ => rfl) (hphase.goesOn (p := .enter) rfl fun _ => rfl) (hphase.inPage _)
    (hphase.inPage _)
  have hcfi := step_goesOn (s := s.withEvents s.idEntryEvents) hquiet hf
    (hphase.goesOn (p := .cfi) (q := .read) rfl fun _ => rfl) (by decide)
  obtain ⟨v, hstep⟩ := step_read (s := s.withEvents (s.idEntryEvents ++ [wr (s.at 0xAA) 0x0098])) hquiet hf
    (hphase.cycle .read) (hread _)
  have htrailing := run_trailing hquiet hf hphase.resetPhase hphase.done_goTo
    (s := (s.withRdata v).withEvents (s.idEntryEvents ++ [wr (s.at 0xAA) 0x0098, rd (s.at off) v]))
  rw [State.withEvents_withEvents] at hcfi htrailing
  rw [State.withRdata_withEvents, State.withEvents_withEvents, hphase.advance_read, List.append_assoc] at hstep
  refine ⟨v, ?_⟩
  calc run (5 + (trailingEvents s).length) (s.goTo (phase .u1))
    _ = run (3 + (1 + (1 + (trailingEvents s).length))) (s.goTo (phase .u1)) := by simp only [← Nat.add_assoc]
    _ = run (1 + (1 + (trailingEvents s).length)) ((s.withEvents s.idEntryEvents).goTo (phase .cfi)) :=
      run_add hentry
    _ = run (1 + (trailingEvents s).length)
          ((s.withEvents (s.idEntryEvents ++ [wr (s.at 0xAA) 0x0098])).goTo (phase .read)) :=
      run_add (run_succ hcfi)
    _ = run (trailingEvents s).length _ := run_add (run_succ hstep)
    _ = .next (done ((s.withRdata v).withEvents (s.queryEvents off v))) := htrailing

/-- READ_QUERY_FIELD's own positions (R207): the answer is the whole cell. -/
theorem rqf_queryPhase : QueryPhase .rqf (fun u => u.reply .success (resultOfCell u.rdata)) where
  cycle _ := rfl
  inPage _ := rfl
  next p u hu := by simp only [advance, hu, rqfNext, rstNext]
  done_goTo _ _ := rfl

/-- The operation of R207, accepted under either operation code that runs it. -/
theorem run_rqfU1 {s : State} {op : BitVec 8} {f : Fields} {off : Nat} (hready : s.Ready) (hquiet : s.Quiet)
    (hoff : (s.accept op f).fieldOffset = off) :
    ∃ v, run (if s.params.trailingResetUnlisted then 9 else 6) ((s.accept op f).goTo (.rqf .u1)) =
      .next ((s.withRdata v).finished op f (s.queryEvents off v) .success (v.zeroExtend 64)) := by
  obtain ⟨v, hrun⟩ := run_query (s := s.accept op f) hquiet hready.2 rqf_queryPhase
    fun _ => congrArg (fun o => some (s.at o)) hoff
  have hsteps : (if s.params.trailingResetUnlisted then 9 else 6) = 5 + (trailingEvents s).length + 1 := by
    rw [trailingEvents_length]
    split <;> rfl
  exact ⟨v, hsteps ▸ run_finished (s := s.withRdata v) hready hquiet.2 hrun⟩

/-- Settles O25: with a base and an even offset the request is admitted, and its positions are those of R207. -/
theorem queryFieldIsTheCell : Obligations.QueryFieldIsTheCell := by
  intro s f hready hquiet
  constructor
  · intro hvalid heven
    have hadmitted : admitsOffset (s.accept Opcode.readQueryField f) = true := by
      simp [admitsOffset, hvalid, heven]
    obtain ⟨v, hrun⟩ := run_rqfU1 (op := Opcode.readQueryField) (f := f) hready hquiet rfl
    exact ⟨_, v, request_admitted hready hadmitted, hrun⟩
  · intro hbad
    have hturned : admitsOffset (s.accept Opcode.readQueryField f) = false := by
      obtain hinvalid | hodd := hbad
      · simp [admitsOffset, hinvalid]
      · simp [admitsOffset, hodd]
    exact turnedAway_of_request rfl hready hquiet.2 hturned

/-- The state with the low field of GET_BLOCK_SIZE kept in QLOW (10_state.md R27). -/
def State.withQlow (low : Cell) (s : State) : State := { s with qlow := low }

/-- The low field's sequence (R210): its value goes to QLOW, and the high field's sequence follows. -/
theorem gbsLow_queryPhase : QueryPhase .gbsLow (fun u => (u.withQlow u.rdata).goTo (.gbsHigh .u1)) where
  cycle _ := rfl
  inPage _ := rfl
  next p u hu := by simp only [advance, hu]; rfl
  done_goTo _ _ := rfl

/-- The high field's sequence (R210), after which the block size is known. -/
theorem gbsHigh_queryPhase : QueryPhase .gbsHigh (fun u => u.reply .success (blockSize u.qlow u.rdata)) where
  cycle _ := rfl
  inPage _ := rfl
  next p u hu := by simp only [advance, hu, rqfNext, rstNext]
  done_goTo _ _ := rfl

theorem blockSizeEvents_eq (s : State) (lowOff highOff : Nat) (low high : Cell) :
    blockSizeEvents s lowOff highOff low high = s.queryEvents lowOff low ++ s.queryEvents highOff high := by
  simp [blockSizeEvents, State.queryEvents, State.idEntryEvents]

/-- The operation of R210 and R211, accepted under either operation code that runs it. -/
theorem run_gbsLowU1 {s : State} {op : BitVec 8} {f : Fields} {lowOff highOff : Nat} (hready : s.Ready)
    (hquiet : s.Quiet) (hlow : (s.accept op f).lowOffset = lowOff) (hhigh : (s.accept op f).highOffset = highOff) :
    ∃ low high, run (if s.params.trailingResetUnlisted then 17 else 11) ((s.accept op f).goTo (.gbsLow .u1)) =
      .next (((s.withRdata high).withQlow low).finished op f (blockSizeEvents s lowOff highOff low high) .success
        (blockSize low high)) := by
  have ⟨_, hf⟩ := hready
  obtain ⟨low, hlowRun⟩ := run_query (s := s.accept op f) hquiet hf gbsLow_queryPhase
    fun _ => congrArg (fun o => some (s.at o)) hlow
  obtain ⟨high, hhighRun⟩ := run_query hquiet hf gbsHigh_queryPhase
    (s := (((s.accept op f).withRdata low).withQlow low).withEvents (s.queryEvents lowOff low))
    fun _ => congrArg (fun o => some (s.at o)) hhigh
  rw [State.withRdata_withEvents, State.withEvents_withEvents] at hhighRun
  have hsteps : (if s.params.trailingResetUnlisted then 17 else 11) =
      5 + (trailingEvents s).length + (5 + (trailingEvents s).length) + 1 := by
    rw [trailingEvents_length]
    split <;> rfl
  refine ⟨low, high, ?_⟩
  rw [hsteps, blockSizeEvents_eq]
  exact run_finished (s := (s.withRdata high).withQlow low) hready hquiet.2 ((run_add hlowRun).trans hhighRun)

/-- Settles O26: with a base and even offsets the request is admitted, its positions are those of R210, and 64 bits hold
the product (R211). -/
theorem blockSizeIsExact : Obligations.BlockSizeIsExact := by
  intro s f hready hquiet
  constructor
  · intro hvalid hlow hhigh
    have hadmitted : admitsOffsets (s.accept Opcode.getBlockSize f) = true := by
      simp [admitsOffsets, hvalid, hlow, hhigh]
    obtain ⟨low, high, hrun⟩ := run_gbsLowU1 (op := Opcode.getBlockSize) (f := f) hready hquiet rfl rfl
    exact ⟨_, low, high, _, request_admitted hready hadmitted, blockSize_toNat low high, hrun⟩
  · intro hbad
    have hturned : admitsOffsets (s.accept Opcode.getBlockSize f) = false := by
      obtain hinvalid | hlow | hhigh := hbad
      · simp [admitsOffsets, hinvalid]
      · simp [admitsOffsets, hlow]
      · simp [admitsOffsets, hhigh]
    exact turnedAway_of_request rfl hready hquiet.2 hturned

end Sys2Proof.Machine
end

section
/-! QUERY, key by key (43_ident_query.md R215). -/

namespace Sys2Proof.Machine

/-- FlashBase answers BASE wherever 64 bits hold it (log 1). -/
theorem resultOfBase_toNat {base : Nat} (h : base < 2 ^ 64) : (resultOfBase base).toNat = base := by
  rw [resultOfBase, if_pos h, BitVec.toNat_ofNat, Nat.mod_eq_of_lt h]

/-! The key decode. -/

theorem queryKey_flashBase {s : State} (h : s.a0 = 0) : queryKey s = s.reply .success (resultOfBase s.base) := by
  simp only [queryKey, h]

theorem queryKey_manufacturer {s : State} (h : s.a0 = 1) : queryKey s = s.goTo .midU1 := by
  simp only [queryKey, h]

theorem queryKey_device {s : State} (h : s.a0 = 2) : queryKey s = s.goTo .didU1 := by
  simp only [queryKey, h]

theorem queryKey_sizeBits {s : State} (h : s.a0 = 3) : queryKey s = s.goTo (.rqf .u1) := by
  simp only [queryKey, h]

theorem queryKey_blockSize {s : State} (h : s.a0 = 4) : queryKey s = s.goTo (.gbsLow .u1) := by
  simp only [queryKey, h]

/-- Keys above 4 are unrecognized (60_exceptions.md R362). -/
theorem queryKey_unrecognized {s : State} (h : 5 ≤ s.a0) : queryKey s = s.reply .unsupportedQuery 0 := by
  unfold queryKey
  split
  iterate 5 omega
  rfl

/-- An operation that answers on acceptance makes no bus cycle. -/
theorem run_reply_finished {s : State} (op : BitVec 8) (f : Fields) (st : Status) (res : BitVec 64) (hready : s.Ready)
    (hreset : s.resetPort = []) :
    run 1 ((s.accept op f).reply st res) = .next (s.finished op f [] st res) :=
  run_finished (n := 0) hready hreset (by rw [State.withEvents_nil]; rfl)

/-- Settles O27: with a base every key is admitted; it is answered on acceptance, or runs the positions of the operation
it selects. -/
theorem queryAnswersByKey : Obligations.QueryAnswersByKey := by
  intro s f hready hquiet
  constructor
  · intro hvalid
    refine ⟨_, request_admitted (admits := admitsBase) hready hvalid, ?_⟩
    refine ⟨fun h => ?base, fun h => ?manufacturer, fun h => ?device, fun h => ?field, fun h => ?size,
      fun h => ?unrecognized⟩
    case base =>
      rw [queryKey_flashBase h]
      exact ⟨_, resultOfBase_toNat, run_reply_finished Opcode.query f _ _ hready hquiet.2⟩
    case manufacturer =>
      rw [queryKey_manufacturer h]
      exact run_midU1 Opcode.query f hready hquiet
    case device =>
      rw [queryKey_device h]
      exact run_didU1 Opcode.query f hready hquiet
    case field =>
      rw [queryKey_sizeBits h]
      exact run_rqfU1 (op := Opcode.query) hready hquiet rfl
    case size =>
      rw [queryKey_blockSize h]
      obtain ⟨low, high, hrun⟩ := run_gbsLowU1 (op := Opcode.query) (f := f) hready hquiet rfl rfl
      exact ⟨low, high, _, blockSize_toNat low high, hrun⟩
    case unrecognized =>
      rw [queryKey_unrecognized h]
      exact run_reply_finished Opcode.query f _ _ hready hquiet.2
  · intro hinvalid
    exact turnedAway_of_request (admits := admitsBase) rfl hready hquiet.2 hinvalid

end Sys2Proof.Machine
end

section
/-! A page of WRITE_BUFFER holds 1 to 32 words, at most those that remain, and the word index stays inside it
(10_state.md R27, 44_program_erase.md R260). -/

namespace Sys2Proof.Machine

/-- The word loop is part of a page. -/
theorem inPage_of_inWord {q : Seq} (h : q.inWord = true) : q.inPage = true := by
  cases q <;> cases h <;> rfl

/-- Outside a page nothing is asked of its registers. -/
theorem pageBounded_outside {s : State} (hout : s.seq.inPage = false) : PageBounded s :=
  ⟨by simp [hout], fun hword => by simp [inPage_of_inWord hword] at hout⟩

/-- Inside a page but outside its word loop the word index is free. -/
theorem pageBounded_outsideWords {s : State} (hbw : 1 ≤ s.bw.toNat ∧ s.bw.toNat ≤ 32 ∧ s.bw.toNat ≤ s.rem)
    (hout : s.seq.inWord = false) : PageBounded s :=
  ⟨fun _ => hbw, by simp [hout]⟩

/-- A page is opened with `min(REM, 32)` words, and only while words remain. -/
theorem wbNextPage_pageBounded (s : State) : PageBounded (wbNextPage s) := by
  unfold wbNextPage
  split
  next =>
    split
    · exact pageBounded_outside rfl
    · exact pageBounded_outside rfl
  next hleft =>
    refine pageBounded_outsideWords ?_ rfl
    have hbw := blockWords_toNat s.rem
    dsimp only
    omega

/-- A poller that returns leaves the page, or opens the next one. -/
theorem pollReturn_pageBounded (ok : Bool) (s : State) : PageBounded (pollReturn ok s) := by
  unfold pollReturn
  dsimp only
  split
  · exact pageBounded_outside rfl
  · exact pageBounded_outside rfl
  · split
    · exact wbNextPage_pageBounded _
    · exact pageBounded_outside rfl
  · exact pageBounded_outside rfl

theorem pollTest_pageBounded {s : State} (h : PageBounded s) : PageBounded (pollTest s) := by
  unfold pollTest
  split
  · exact pollReturn_pageBounded false s
  · exact h

theorem pollAfterRead_pageBounded {s : State} (h : PageBounded s) : PageBounded (pollAfterRead s) := by
  unfold pollAfterRead
  dsimp only
  split
  · exact pollReturn_pageBounded true _
  · exact pollTest_pageBounded h

/-- After a data write the index is one more: BW itself, where the word loop ends, or still below it. -/
theorem wbWordDone_pageBounded {s : State} (hbw : 1 ≤ s.bw.toNat ∧ s.bw.toNat ≤ 32 ∧ s.bw.toNat ≤ s.rem)
    (hwi : s.wi.toNat < s.bw.toNat) : PageBounded (wbWordDone s) := by
  unfold wbWordDone
  dsimp only
  split
  next => exact pageBounded_outsideWords hbw rfl
  next hmore =>
    refine ⟨fun _ => hbw, fun _ => ?_⟩
    dsimp only [State.goTo]
    bv_omega

theorem rbNext_pageBounded (s : State) : PageBounded (rbNext s) := by
  unfold rbNext
  repeat' split
  all_goals exact pageBounded_outside rfl

theorem queryKey_pageBounded (s : State) : PageBounded (queryKey s) := by
  unfold queryKey
  split <;> exact pageBounded_outside rfl

/-- Advancing keeps the page registers bounded: outside a page by leaving them free, inside by the loops' own tests. -/
theorem advance_pageBounded {s : State} (h : PageBounded s) : PageBounded (advance s) := by
  have ⟨hpage, hword⟩ := h
  cases hq : s.seq with
  | idle | faulted | respond =>
    simp only [advance, hq]
    exact h
  | pollRd | wpPoll | erPoll | wbPoll =>
    simp only [advance, hq]
    exact pollAfterRead_pageBounded h
  | wpData | erConfirm =>
    simp only [advance, hq]
    exact pollTest_pageBounded (pageBounded_outside rfl)
  | wbConfirm =>
    simp only [advance, hq]
    exact pollTest_pageBounded (pageBounded_outsideWords (hpage (by rw [hq]; rfl)) rfl)
  | wbU1 | wbU2 | wbLoad =>
    simp only [advance, hq]
    exact pageBounded_outsideWords (hpage (by rw [hq]; rfl)) rfl
  | wbCount =>
    simp only [advance, hq]
    have hbw := hpage (by rw [hq]; rfl)
    exact ⟨fun _ => hbw, fun _ => hbw.1⟩
  | wbSrc0 | wbSrc1 =>
    simp only [advance, hq]
    exact ⟨fun _ => hpage (by rw [hq]; rfl), fun _ => hword (by rw [hq]; rfl)⟩
  | wbData =>
    simp only [advance, hq]
    exact wbWordDone_pageBounded (hpage (by rw [hq]; rfl)) (hword (by rw [hq]; rfl))
  | rbOut =>
    simp only [advance, hq]
    exact rbNext_pageBounded s
  | rst | midRst | didRst | wpRst | erRst0 | erRst | wbAbort | wbRst =>
    simp only [advance, hq]
    exact rstNext_keeps (fun _ => pageBounded_outside rfl) (pageBounded_outside rfl)
  | rqf | gbsLow | gbsHigh =>
    simp only [advance, hq]
    exact rqfNext_keeps (fun _ => pageBounded_outside rfl) (pageBounded_outside rfl)
  | didRead =>
    simp only [advance, hq]
    split <;> exact pageBounded_outside rfl
  | _ =>
    simp only [advance, hq]
    exact pageBounded_outside rfl

/-- An operation starts outside a page, or with the first page of WRITE_BUFFER. -/
theorem Starts.pageBounded {u t : State} (h : Starts u t) : PageBounded t := by
  cases h with
  | poll => exact pollTest_pageBounded (pageBounded_outside rfl)
  | query => exact queryKey_pageBounded u
  | writeBuffer => exact wbNextPage_pageBounded _
  | readBuffer => exact rbNext_pageBounded _
  | _ => exact pageBounded_outside rfl

/-- The event of a running block writes no page register, and leaves SEQ but for a bus fault. -/
theorem event_pageBounded {s : State} (hf : s.faulted = false) (h : PageBounded s) : PageBounded s.event := by
  have hseq := event_seq s hf
  split at hseq
  next => exact pageBounded_outside (by rw [hseq]; rfl)
  next => simpa [PageBounded, hseq] using h

/-- Settles O53, by the principle for invariants: a reset and the response lead outside a page, the start of an
operation and an advance keep the bounds, and the event of a busy block writes no page register. -/
theorem stepKeepsPageBounded : Obligations.StepKeepsPageBounded := by
  intro s t hs h
  refine step_inv (P := PageBounded) ?reset ?pop ?take ?accept ?start ?respond ?event hs h
  case reset => exact fun u _ => pageBounded_outside rfl
  case pop => exact fun u hu => hu
  case take => exact fun u _ _ hu _ => hu
  case accept => exact fun u _ _ hu _ => hu
  case start => exact fun u v _ _ _ hstart => hstart.pageBounded
  case respond => exact fun u _ _ _ _ => pageBounded_outside rfl
  case event =>
    intro u hf _ _ _ hu
    have hev := event_pageBounded hf hu
    unfold State.settled
    split
    · exact hev
    · exact advance_pageBounded hev

end Sys2Proof.Machine
end

section
/-! The command cycles of WORD_PROGRAM, ERASE_BLOCK and WRITE_BUFFER, and the poll that opens with some of them
(30_encoding.md R111, 44_program_erase.md R240, R250, R260, 42_poll.md R181). -/

namespace Sys2Proof.Machine

/-- A command cycle at a position that emits it, whatever operand it is executed with, when the platform signals no
fault: its write, then SEQ advances. -/
theorem emitCycle_unfaulted {s : State} {k : CycleKind} {q : Seq} (addr : State → Nat) (v : Cell)
    (hf : s.faulted = false) (hfault : s.busFaulting = false) (hq : s.seq = q) (hk : q.cycle = some k) :
    emitCycle k addr v s = .next (advance (s.cycled (addr s) v q)) := by
  subst hq
  have hrunning : s.seq ≠ .faulted := by
    intro hq
    simp [hq, Seq.cycle] at hk
  have hstop : s.stopped = false := by simp [State.stopped, hf, hrunning]
  have hwritten : (s.cycled (addr s) v s.seq).faulted = false := hf
  simp [emitCycle, hstop, hk, busWrite_unfaulted _ _ hfault, afterCycle, hwritten]

/-- A poll's start as one update: with `POLL_CEILING = 0` it has already timed out (R181 (c)) and SEQ is at `exit`. -/
theorem pollStart_eq {site exit : Seq}
    (htimeout : ∀ u : State, u.seq = site → pollReturn false u = { u with pres := false, seq := exit })
    (a : Nat) (v : Cell) (s : State) :
    pollStart site a v s =
      { s with
        ptgt := a
        expect := v
        pollCnt := 0
        seq := if s.params.pollCeiling = 0 then exit else site
        pres := if s.params.pollCeiling = 0 then false else s.pres } := by
  unfold pollStart pollTest
  by_cases hzero : s.params.pollCeiling = 0
  · rw [if_pos (by simp [State.pollExhausted, hzero]), htimeout _ rfl]
    simp [hzero]
  · rw [if_neg (by simpa [State.pollExhausted] using Ne.symm hzero), if_neg hzero, if_neg hzero]

/-! The return of a poll to its caller (R240, R250, R260, R263). -/

theorem pollReturn_wpPoll {s : State} (ok : Bool) (hq : s.seq = .wpPoll) :
    pollReturn ok s = State.goTo (.wpRst .u1) { s with pres := ok } := by
  simp only [pollReturn, hq]

theorem pollReturn_erPoll {s : State} (ok : Bool) (hq : s.seq = .erPoll) :
    pollReturn ok s = State.goTo (.erRst .u1) { s with pres := ok } := by
  simp only [pollReturn, hq]

theorem pollReturn_wbPoll {s : State} (ok : Bool) (hq : s.seq = .wbPoll) :
    pollReturn ok s =
      if ok then wbPageDone { s with pres := ok } else State.goTo (.wbAbort .u1) { s with pres := ok } := by
  simp only [pollReturn, hq]

/-- Settles O38: after the write the poll opens at the same address. -/
theorem eraseConfirmOpensThePoll : Obligations.EraseConfirmOpensThePoll := by
  intro s hf hfault hq
  have hexec : exec .cycEraseConfirm s =
      .next (pollStart .erPoll (s.at s.a0) 0xFFFF (s.cycled (s.at s.a0) 0x0030 .erConfirm)) :=
    emitCycle_unfaulted (fun t => t.at t.a0) _ hf hfault hq rfl
  rw [hexec, pollStart_eq fun _ => pollReturn_erPoll false]
  rfl

/-- Settles O39: both cycles write at the page address; SEQ moves on, and after the count the word index is 0. -/
theorem bufferLoadAndCountCycles : Obligations.BufferLoadAndCountCycles := by
  intro s hf hfault
  refine ⟨fun hq => ?load, fun n hq => ?count⟩
  case load => exact emitCycle_unfaulted (fun t => t.paddr) _ hf hfault hq rfl
  case count =>
    have hvalue : n.zeroExtend 16 = BitVec.ofNat 16 n.toNat := BitVec.eq_of_toNat_eq (by simp)
    rw [← hvalue]
    exact emitCycle_unfaulted (fun t => t.paddr) _ hf hfault hq rfl

/-- Settles O40: after the write the poll opens at the last word of the page. -/
theorem bufferConfirmOpensThePoll : Obligations.BufferConfirmOpensThePoll := by
  intro s hf hfault hq
  have hexec : exec .cycWbConfirm s =
      .next (pollStart .wbPoll (s.pageWord (s.bw - 1)) s.wdata (s.cycled s.paddr 0x0029 .wbConfirm)) :=
    emitCycle_unfaulted (fun t => t.paddr) _ hf hfault hq rfl
  rw [hexec, pollStart_eq fun _ => pollReturn_wbPoll false]
  rfl

/-- After a data write in a page the next word follows, or the confirm cycle. -/
theorem wbWordDone_eq (s : State) :
    wbWordDone s = { s with wi := s.wi + 1, seq := if s.wi + 1 = s.bw then .wbConfirm else .wbSrc0 } := by
  unfold wbWordDone
  dsimp only
  split <;> rfl

/-- The state with a data word in WDATA (10_state.md R27). -/
def State.withWdata (v : Cell) (s : State) : State := { s with wdata := v }

/-- Settles O41: WDATA holds the word before its write; then the poll opens at the same address, or the word loop goes
on. -/
theorem dataCycles : Obligations.DataCycles := by
  intro s v hf hfault
  refine ⟨fun hq => ?word, fun hq => ?page⟩
  case word =>
    have haddr : (s.withWdata v).dataAddr = s.at s.a0 := by simp [State.dataAddr, State.withWdata, hq]
    have hexec : exec (.cycData v) s = .next (advance ((s.withWdata v).cycled (s.withWdata v).dataAddr v .wpData)) :=
      emitCycle_unfaulted (s := s.withWdata v) State.dataAddr v hf hfault hq rfl
    have hadvance : advance ((s.withWdata v).cycled (s.at s.a0) v .wpData) =
        pollStart .wpPoll (s.at s.a0) v ((s.withWdata v).cycled (s.at s.a0) v .wpData) := rfl
    rw [hexec, haddr, hadvance, pollStart_eq fun _ => pollReturn_wpPoll false]
    rfl
  case page =>
    have haddr : (s.withWdata v).dataAddr = s.plus s.paddr (2 * s.wi.toNat) := by
      simp [State.dataAddr, State.withWdata, hq]
    have hexec : exec (.cycData v) s = .next (wbWordDone ((s.withWdata v).cycled (s.withWdata v).dataAddr v .wbData)) :=
      emitCycle_unfaulted (s := s.withWdata v) State.dataAddr v hf hfault hq rfl
    rw [hexec, haddr, wbWordDone_eq]
    rfl

end Sys2Proof.Machine
end

section
/-! WORD_PROGRAM and ERASE_BLOCK, which end with a poll and the reset on either outcome (44_program_erase.md R240,
R250). -/

namespace Sys2Proof.Machine

/-! Admission with a base and an even offset (30_encoding.md R108 (3), (4)). -/

theorem admitsOffset_accept {s : State} {f : Fields} (op : BitVec 8) (hvalid : s.baseValid = true)
    (heven : isEven f.a0 = true) : admitsOffset (s.accept op f) = true := by
  simp [admitsOffset, hvalid, heven]

theorem admitsOffset_accept_false {s : State} {f : Fields} (op : BitVec 8)
    (hbad : s.baseValid = false ∨ isEven f.a0 = false) : admitsOffset (s.accept op f) = false := by
  obtain hinvalid | hodd := hbad
  · simp [admitsOffset, hinvalid]
  · simp [admitsOffset, hodd]

/-- A poll from its start to its return: only reads of the target, and the loop's registers. -/
theorem run_pollStart_return {s : State} {site : Seq} (a : Nat) (e : Cell) (hquiet : s.Quiet) (hf : s.faulted = false)
    (hsite : site.isPoll = true) :
    ∃ vs ok, PollEnds s.params.pollCeiling.toNat e vs ok ∧
      run vs.length (pollStart site a e s) =
        .next (pollReturn ok (((s.withPoll a e vs ok).withEvents (vs.map (rd a))).goTo site)) := by
  obtain ⟨vs, ok, hends, hrun⟩ := run_pollStart site a e hquiet.1 hquiet.2 hf hsite
  refine ⟨vs, ok, hends, hrun.trans ?_⟩
  simp [pollReturn, State.polled, State.withPoll, State.withEvents, State.goTo]

@[simp] theorem State.withPoll_withEvents (a : Nat) (e : Cell) (vs : List Cell) (ok : Bool) (es : List Event)
    (s : State) : (s.withEvents es).withPoll a e vs ok = (s.withPoll a e vs ok).withEvents es := rfl

/-- The end that WORD_PROGRAM and ERASE_BLOCK share: the poll, the reset on either outcome, and the poll's outcome as
the response. -/
theorem run_poll_resetSeq_finished {s : State} {site : Seq} {phase : Rst → Seq} (op : BitVec 8) (f : Fields)
    (es : List Event) (a : Nat) (e : Cell) (hready : s.Ready) (hquiet : s.Quiet) (hsite : site.isPoll = true)
    (hreturn : ∀ ok (u : State), u.seq = site → pollReturn ok u = State.goTo (phase .u1) { u with pres := ok })
    (hphase : ResetPhase phase (fun u => u.reply (pollStatus u.pres) 0)) :
    ∃ vs ok, PollEnds s.params.pollCeiling.toNat e vs ok ∧
      run (vs.length + 4) (pollStart site a e ((s.accept op f).withEvents es)) =
        .next ((s.withPoll a e vs ok).finished op f (es ++ vs.map (rd a) ++ resetEvents s.params.aw s.base)
          (pollStatus ok) 0) := by
  have ⟨_, hf⟩ := hready
  obtain ⟨vs, ok, hends, hpoll⟩ :=
    run_pollStart_return (s := (s.accept op f).withEvents es) a e hquiet hf hsite
  have hreset := run_resetSeq (s := ((s.withPoll a e vs ok).accept op f).withEvents (es ++ vs.map (rd a))) hquiet hf
    hphase
  rw [hreturn ok _ rfl, State.withPoll_withEvents, State.withEvents_withEvents] at hpoll
  rw [State.withEvents_withEvents] at hreset
  have hfinish := run_finished (s := s.withPoll a e vs ok) hready hquiet.2 hreset
  exact ⟨vs, ok, hends, (run_add (n := 4) hpoll).trans hfinish⟩

theorem wpU1_goesOn : Seq.wpU1.GoesOn .unlock1 .wpU2 := ⟨rfl, fun u hu => by simp only [advance, hu]⟩

theorem wpU2_goesOn : Seq.wpU2.GoesOn .unlock2 .wpCmd := ⟨rfl, fun u hu => by simp only [advance, hu]⟩

theorem wpCmd_goesOn : Seq.wpCmd.GoesOn .wordPgm .wpData := ⟨rfl, fun u hu => by simp only [advance, hu]⟩

theorem wpRst_resetPhase : ResetPhase .wpRst (fun u => u.reply (pollStatus u.pres) 0) :=
  fun _ => ⟨rfl, rfl, fun u hu => by simp only [advance, hu, rstNext]⟩

@[simp] theorem State.withWdata_withEvents (v : Cell) (es : List Event) (s : State) :
    (s.withEvents es).withWdata v = (s.withWdata v).withEvents es := rfl

/-- The data cycle of WORD_PROGRAM: D goes to WDATA and to its target, and the poll opens there. -/
theorem step_wpData {s : State} (hquiet : s.Quiet) (hf : s.faulted = false) :
    step (s.goTo .wpData) =
      .next (pollStart .wpPoll (s.at s.a0) s.d ((s.withWdata s.d).withEvents [wr (s.at s.a0) s.d])) :=
  step_quiet (s := s.goTo .wpData) hquiet.1 hquiet.2 hf (by simp) (by simp)

/-- The bus events of WORD_PROGRAM before its poll (R240). -/
def State.wordProgramEvents (f : Fields) (s : State) : List Event :=
  unlockEvents s.params.aw s.base ++ [wr (s.at 0xAAA) 0x00A0, wr (s.at f.a0) f.d]

/-- WORD_PROGRAM, from its first cycle to the start of its poll. -/
theorem run_wpU1 {s : State} (op : BitVec 8) (f : Fields) (hquiet : s.Quiet) (hf : s.faulted = false) :
    run 4 ((s.accept op f).goTo .wpU1) =
      .next (pollStart .wpPoll (s.at f.a0) f.d
        (((s.withWdata f.d).accept op f).withEvents (s.wordProgramEvents f))) := by
  have hunlock := run_unlock (s := s.accept op f) hquiet hf wpU1_goesOn wpU2_goesOn rfl rfl
  have hcommand := step_goesOn (s := (s.accept op f).withEvents (unlockEvents s.params.aw s.base)) hquiet hf
    wpCmd_goesOn (by decide)
  have hdata := step_wpData hquiet hf
    (s := (s.accept op f).withEvents (unlockEvents s.params.aw s.base ++ [wr (s.at 0xAAA) 0x00A0]))
  rw [State.withEvents_withEvents] at hcommand
  rw [State.withWdata_withEvents, State.withEvents_withEvents, List.append_assoc] at hdata
  exact (run_add (n := 2) hunlock).trans ((run_succ hcommand).trans (run_succ hdata))

/-- Settles O28: with a base and an even target the request is admitted, and its positions are those of R240. -/
theorem wordProgramSequence : Obligations.WordProgramSequence := by
  intro s f hready hquiet
  have ⟨_, hf⟩ := hready
  constructor
  · intro hvalid heven
    obtain ⟨vs, ok, hends, hend⟩ := run_poll_resetSeq_finished (s := s.withWdata f.d) Opcode.wordProgram f
      (s.wordProgramEvents f) (s.at f.a0) f.d hready hquiet rfl (fun ok _ => pollReturn_wpPoll ok) wpRst_resetPhase
    refine ⟨_, vs, ok, request_admitted hready (admitsOffset_accept _ hvalid heven), hends, ?_⟩
    calc run (vs.length + 8) ((s.accept Opcode.wordProgram f).goTo .wpU1)
      _ = run (4 + (vs.length + 4)) ((s.accept Opcode.wordProgram f).goTo .wpU1) := by rw [Nat.add_left_comm]
      _ = run (vs.length + 4) _ := run_add (run_wpU1 _ f hquiet hf)
      _ = _ := hend
  · intro hbad
    exact turnedAway_of_request rfl hready hquiet.2 (admitsOffset_accept_false _ hbad)

theorem erRst0_resetPhase : ResetPhase .erRst0 (State.goTo .erU1A) :=
  fun _ => ⟨rfl, rfl, fun u hu => by simp only [advance, hu]⟩

theorem erU1A_goesOn : Seq.erU1A.GoesOn .unlock1 .erU2A := ⟨rfl, fun u hu => by simp only [advance, hu]⟩

theorem erU2A_goesOn : Seq.erU2A.GoesOn .unlock2 .erSetup := ⟨rfl, fun u hu => by simp only [advance, hu]⟩

theorem erSetup_goesOn : Seq.erSetup.GoesOn .eraseSetup .erU1B := ⟨rfl, fun u hu => by simp only [advance, hu]⟩

theorem erU1B_goesOn : Seq.erU1B.GoesOn .unlock1 .erU2B := ⟨rfl, fun u hu => by simp only [advance, hu]⟩

theorem erU2B_goesOn : Seq.erU2B.GoesOn .unlock2 .erConfirm := ⟨rfl, fun u hu => by simp only [advance, hu]⟩

theorem erRst_resetPhase : ResetPhase .erRst (fun u => u.reply (pollStatus u.pres) 0) :=
  fun _ => ⟨rfl, rfl, fun u hu => by simp only [advance, hu, rstNext]⟩

/-- The erase confirm: its write, and the poll for the erased cell opens there. -/
theorem step_erConfirm {s : State} (hquiet : s.Quiet) (hf : s.faulted = false) :
    step (s.goTo .erConfirm) =
      .next (pollStart .erPoll (s.at s.a0) 0xFFFF (s.withEvents [wr (s.at s.a0) 0x0030])) :=
  step_quiet (s := s.goTo .erConfirm) hquiet.1 hquiet.2 hf (by simp) (by simp)

/-- The bus events of ERASE_BLOCK before its poll (R250). -/
def State.eraseEvents (f : Fields) (s : State) : List Event :=
  resetEvents s.params.aw s.base ++ unlockEvents s.params.aw s.base ++ [wr (s.at 0xAAA) 0x0080] ++
    unlockEvents s.params.aw s.base ++ [wr (s.at f.a0) 0x0030]

/-- ERASE_BLOCK, from its first cycle to the start of its poll. -/
theorem run_erRst0 {s : State} (op : BitVec 8) (f : Fields) (hquiet : s.Quiet) (hf : s.faulted = false) :
    run 9 ((s.accept op f).goTo (.erRst0 .u1)) =
      .next (pollStart .erPoll (s.at f.a0) 0xFFFF ((s.accept op f).withEvents (s.eraseEvents f))) := by
  have hreset := run_resetSeq (s := s.accept op f) hquiet hf erRst0_resetPhase
  have hfirst := run_unlock (s := (s.accept op f).withEvents (resetEvents s.params.aw s.base)) hquiet hf
    erU1A_goesOn erU2A_goesOn rfl rfl
  have hsetup := step_goesOn
    (s := (s.accept op f).withEvents (resetEvents s.params.aw s.base ++ unlockEvents s.params.aw s.base)) hquiet hf
    erSetup_goesOn (by decide)
  have hsecond := run_unlock (s := (s.accept op f).withEvents (resetEvents s.params.aw s.base ++
    unlockEvents s.params.aw s.base ++ [wr (s.at 0xAAA) 0x0080])) hquiet hf erU1B_goesOn erU2B_goesOn rfl rfl
  have hconfirm := step_erConfirm hquiet hf (s := (s.accept op f).withEvents (resetEvents s.params.aw s.base ++
    unlockEvents s.params.aw s.base ++ [wr (s.at 0xAAA) 0x0080] ++ unlockEvents s.params.aw s.base))
  rw [State.withEvents_withEvents] at hfirst hsetup hsecond hconfirm
  calc run 9 ((s.accept op f).goTo (.erRst0 .u1))
    _ = run 6 _ := run_add (n := 6) hreset
    _ = run 4 _ := run_add (n := 4) hfirst
    _ = run 3 _ := run_succ hsetup
    _ = run 1 _ := run_add (n := 1) hsecond
    _ = _ := run_succ hconfirm

/-- Settles O29: with a base and an even offset the request is admitted, and its positions are those of R250. -/
theorem eraseBlockSequence : Obligations.EraseBlockSequence := by
  intro s f hready hquiet
  have ⟨_, hf⟩ := hready
  constructor
  · intro hvalid heven
    obtain ⟨vs, ok, hends, hend⟩ := run_poll_resetSeq_finished (s := s) Opcode.eraseBlock f
      (s.eraseEvents f) (s.at f.a0) 0xFFFF hready hquiet rfl (fun ok _ => pollReturn_erPoll ok) erRst_resetPhase
    refine ⟨_, vs, ok, request_admitted hready (admitsOffset_accept _ hvalid heven), hends, ?_⟩
    calc run (vs.length + 13) ((s.accept Opcode.eraseBlock f).goTo (.erRst0 .u1))
      _ = run (9 + (vs.length + 4)) ((s.accept Opcode.eraseBlock f).goTo (.erRst0 .u1)) := by rw [Nat.add_left_comm]
      _ = run (vs.length + 4) _ := run_add (run_erRst0 _ f hquiet hf)
      _ = _ := hend
  · intro hbad
    exact turnedAway_of_request rfl hready hquiet.2 (admitsOffset_accept_false _ hbad)

end Sys2Proof.Machine
end

section
/-! WRITE_BUFFER (44_program_erase.md R260 to R264): page after page, each with its poll, until no word is left or a
poll times out. -/

namespace Sys2Proof.Machine

/-! The head of the page loop. -/

/-- The next page opened: it has `min(REM, 32)` words, and its unlock is next. -/
def State.pageOpened (s : State) : State := { s with bw := blockWords s.rem, seq := .wbU1 }

/-- While words remain the next page is opened. -/
theorem wbNextPage_opens {s : State} (hleft : s.rem ≠ 0) : wbNextPage s = s.pageOpened :=
  if_neg hleft

/-- When none is left the trailing reset follows by the parameter, or the response (R264). -/
theorem wbNextPage_ends {s : State} (hnone : s.rem = 0) :
    wbNextPage s = if s.params.trailingResetUnlisted then s.goTo (.wbRst .u1) else s.reply .success 0 :=
  if_pos hnone

/-- The head of the loop does not ask where it was come to from. -/
theorem wbNextPage_goTo (q : Seq) (s : State) : wbNextPage (s.goTo q) = wbNextPage s := by
  by_cases hnone : s.rem = 0
  · rw [wbNextPage_ends hnone, wbNextPage_ends (s := s.goTo q) hnone]
    rfl
  · rw [wbNextPage_opens hnone, wbNextPage_opens (s := s.goTo q) hnone]
    rfl

/-- Settles O31: the request is admitted, and with a length other than 0 a word is left. -/
theorem writeBufferOpensItsFirstPage : Obligations.WriteBufferOpensItsFirstPage := by
  intro s f hready hvalid heven hlen
  refine ⟨blockWords ((f.a1 + 1) / 2), blockWords_toNat _, ?_⟩
  have hleft : (f.a1 + 1) / 2 ≠ 0 := by omega
  calc exec (.writeBuffer f) s
    _ = .next (wbStart (s.accept Opcode.writeBuffer f)) :=
      request_admitted hready (admitsOffset_accept _ hvalid heven)
    _ = _ := congrArg _ (wbNextPage_opens hleft)

/-! One page with its poll. -/

/-- The registers after a page's words `bs`, all written: the last is in WDATA, and the next source byte is the one
after them. `d` counts the free bytes drawn. -/
def State.paged (bs : List Byte) (d : Nat) (s : State) : State :=
  { s with
    bw := blockWords s.rem
    wi := blockWords s.rem
    wdata := lastWord bs
    sidx := s.srcIndex s.sidx bs.length
    draws := d }

/-- The registers after the page's poll, which reads `vs` at its last word. -/
def State.pagePolled (bs : List Byte) (d : Nat) (vs : List Cell) (ok : Bool) (s : State) : State :=
  (s.paged bs d).withPoll (s.plus s.paddr (bs.length - 2)) (lastWord bs) vs ok

/-- The events of a page with its poll, as `BufferRun` has them. -/
def polledPageEvents (s : State) (page i : Nat) (bs : List Byte) (vs : List Cell) : List Event :=
  pageEvents s page i bs ++ vs.map (rd (s.plus page (bs.length - 2)))

/-- The foot of the page loop: the next page comes after the words written. -/
def State.pageDone (s : State) : State :=
  { s with paddr := s.pageWord s.bw, rem := s.rem - s.bw.toNat }

/-- After the poll, its outcome in PRES, the loop goes on, or the abort reset follows (R263). -/
theorem pollReturn_page {s : State} {ok : Bool} (hpres : s.pres = ok) :
    pollReturn ok (s.goTo .wbPoll) = if ok then wbNextPage s.pageDone else s.goTo (.wbAbort .u1) := by
  subst hpres
  have hfoot : wbPageDone (s.goTo .wbPoll) = wbNextPage s.pageDone := wbNextPage_goTo .wbPoll s.pageDone
  rw [pollReturn_wbPoll _ rfl, ← hfoot]
  rfl

/-- After a page's poll the next page, the words left and the next source byte are those of `BufferRun`. -/
theorem State.pagePolled_pageDone {s : State} {bs : List Byte} (d : Nat) (vs : List Cell) (ok : Bool)
    (hlen : bs.length = 2 * min s.rem 32) :
    (s.pagePolled bs d vs ok).pageDone.paddr = s.plus s.paddr bs.length ∧
      (s.pagePolled bs d vs ok).pageDone.rem = s.rem - min s.rem 32 ∧
      (s.pagePolled bs d vs ok).pageDone.sidx = s.srcIndex s.sidx bs.length := by
  refine ⟨?page, ?rem, rfl⟩
  case page =>
    rw [hlen, ← blockWords_toNat]
    rfl
  case rem =>
    rw [← blockWords_toNat]
    rfl

/-- One page, from the head of the loop to its head again, or to the abort reset if the poll times out. -/
theorem run_polledPage {s : State} (hquiet : s.Quiet) (hf : s.faulted = false) (hleft : s.rem ≠ 0)
    (hpage : s.paddr < 2 ^ s.params.aw) (hsidx : s.sidx < 2 ^ (s.params.aw + 1)) :
    ∃ n bs d vs ok, bs.length = 2 * min s.rem 32 ∧ SourceBytes s s.sidx bs ∧
      PollEnds s.params.pollCeiling.toNat (lastWord bs) vs ok ∧
      run n (wbNextPage s) = .next
        (if ok then wbNextPage ((s.pagePolled bs d vs ok).pageDone.withEvents (polledPageEvents s s.paddr s.sidx bs vs))
        else ((s.pagePolled bs d vs ok).withEvents (polledPageEvents s s.paddr s.sidx bs vs)).goTo (.wbAbort .u1)) := by
  have hbw := blockWords_toNat s.rem
  obtain ⟨bs, d, hlen, hsrc, hwords⟩ := run_page (s := s.pageOpened) hquiet.1 hquiet.2 hf rfl hpage hsidx
    (by dsimp only [State.pageOpened]; omega) (by dsimp only [State.pageOpened]; omega)
  obtain ⟨vs, ok, hends, hpoll⟩ := run_pollStart_return (site := .wbPoll)
    (s := (s.paged bs d).withEvents (pageEvents s s.paddr s.sidx bs)) (s.plus s.paddr (bs.length - 2)) (lastWord bs)
    hquiet hf rfl
  rw [State.withPoll_withEvents, State.withEvents_withEvents, pollReturn_page (ok := ok) rfl] at hpoll
  refine ⟨5 + 3 * (blockWords s.rem).toNat + vs.length, bs, d, vs, ok, hbw ▸ hlen, hsrc, hends, ?_⟩
  rw [wbNextPage_opens hleft]
  exact (run_add hwords).trans hpoll

/-! The end of the loop. -/

theorem wbAbort_resetPhase : ResetPhase .wbAbort (State.reply .timeout 0) :=
  fun _ => ⟨rfl, rfl, fun u hu => by simp only [advance, hu]⟩

theorem wbRst_resetPhase : ResetPhase .wbRst (State.reply .success 0) :=
  fun _ => ⟨rfl, rfl, fun u hu => by simp only [advance, hu]⟩

/-- With no word left the trailing reset follows by the parameter, and the response (R264). -/
theorem run_pagesDone {s : State} (hquiet : s.Quiet) (hf : s.faulted = false) (hnone : s.rem = 0) :
    run (trailingEvents s).length (wbNextPage s) = .next ((s.withEvents (trailingEvents s)).reply .success 0) := by
  rw [wbNextPage_ends hnone]
  exact run_trailing hquiet hf wbRst_resetPhase fun _ _ => rfl

/-! Page after page. -/

/-- The working registers of WRITE_BUFFER (R260), and the counter of free bytes (log 15), as `w` has them. -/
def State.withPageRegs (s w : State) : State :=
  { s with
    ptgt := w.ptgt
    expect := w.expect
    pollCnt := w.pollCnt
    rdata := w.rdata
    paddr := w.paddr
    rem := w.rem
    bw := w.bw
    wi := w.wi
    sidx := w.sidx
    wdata := w.wdata
    pres := w.pres
    draws := w.draws }

/-- The ready block `s` after it has accepted a WRITE_BUFFER and made the events `es`, with the working registers of
`w`. -/
def State.buffering (s : State) (f : Fields) (w : State) (es : List Event) : State :=
  ((s.withPageRegs w).accept Opcode.writeBuffer f).withEvents es

theorem State.buffering_withEvents (s : State) (f : Fields) (w : State) (es es' : List Event) :
    (s.buffering f w es).withEvents es' = s.buffering f w (es ++ es') :=
  State.withEvents_withEvents ..

/-- Such a state is one still when it makes more events. -/
theorem State.withEvents_of_buffering {s u : State} {f : Fields} {es : List Event} (es' : List Event)
    (hu : u = s.buffering f u es) : u.withEvents es' = s.buffering f u (es ++ es') :=
  (congrArg (State.withEvents es') hu).trans (s.buffering_withEvents f u es es')

/-- One page of a WRITE_BUFFER that has made the events `es`. -/
theorem run_buffering_page {s : State} (f : Fields) (w : State) (es : List Event) (hquiet : s.Quiet)
    (hf : s.faulted = false) (hleft : w.rem ≠ 0) (hpage : w.paddr < 2 ^ s.params.aw)
    (hsidx : w.sidx < 2 ^ (s.params.aw + 1)) :
    ∃ n bs vs ok w', bs.length = 2 * min w.rem 32 ∧ SourceBytes s w.sidx bs ∧
      PollEnds s.params.pollCeiling.toNat (lastWord bs) vs ok ∧
      (ok = true → w'.paddr = s.plus w.paddr bs.length ∧ w'.rem = w.rem - min w.rem 32 ∧
        w'.sidx = s.srcIndex w.sidx bs.length) ∧
      run n (wbNextPage (s.buffering f w es)) = .next
        (if ok then wbNextPage (s.buffering f w' (es ++ polledPageEvents s w.paddr w.sidx bs vs))
        else (s.buffering f w' (es ++ polledPageEvents s w.paddr w.sidx bs vs)).goTo (.wbAbort .u1)) := by
  obtain ⟨n, bs, d, vs, ok, hlen, hsrc, hends, hrun⟩ := run_polledPage (s := s.buffering f w es) hquiet hf hleft hpage
    hsidx
  rw [State.withEvents_of_buffering (s := s) (f := f) (es := es) _ rfl,
    State.withEvents_of_buffering (s := s) (f := f) (es := es) _ rfl] at hrun
  cases ok
  case false => exact ⟨n, bs, vs, false, _, hlen, hsrc, hends, nofun, hrun⟩
  case true => exact ⟨n, bs, vs, true, _, hlen, hsrc, hends, fun _ => State.pagePolled_pageDone d vs true hlen, hrun⟩

/-- The page loop, from its head with `rem` words left to the coming response, ends as `BufferRun` says. -/
theorem run_pages {s : State} (f : Fields) (hquiet : s.Quiet) (hf : s.faulted = false) (rem : Nat) :
    ∀ (w : State) (es₀ : List Event), w.rem = rem → w.paddr < 2 ^ s.params.aw → w.sidx < 2 ^ (s.params.aw + 1) →
      ∃ n es st w', BufferRun s w.paddr rem w.sidx es st ∧
        run n (wbNextPage (s.buffering f w es₀)) = .next ((s.buffering f w' (es₀ ++ es)).reply st 0) := by
  induction rem using Nat.strong_induction_on with
  | _ rem ih =>
    rintro w es₀ rfl hpage hsidx
    by_cases hleft : w.rem = 0
    case pos =>
      have hdone := run_pagesDone (s := s.buffering f w es₀) hquiet hf hleft
      rw [State.buffering_withEvents] at hdone
      exact ⟨_, _, _, w, hleft ▸ .done w.paddr w.sidx, hdone⟩
    case neg =>
      have hpos := Nat.pos_of_ne_zero hleft
      obtain ⟨n, bs, vs, ok, w₁, hlen, hsrc, hends, hnext, hrun⟩ :=
        run_buffering_page f w es₀ hquiet hf hleft hpage hsidx
      cases ok
      case false =>
        have habort := run_resetSeq (s := s.buffering f w₁ (es₀ ++ polledPageEvents s w.paddr w.sidx bs vs)) hquiet hf
          wbAbort_resetPhase
        rw [State.buffering_withEvents, List.append_assoc] at habort
        exact ⟨_, _, _, w₁, .abort w.paddr w.rem w.sidx bs vs hpos hlen hsrc hends, (run_add hrun).trans habort⟩
      case true =>
        obtain ⟨hpage₁, hrem₁, hsidx₁⟩ := hnext rfl
        obtain ⟨n', es, st, w₂, hrest, hrun'⟩ := ih (w.rem - min w.rem 32) (by omega) w₁
          (es₀ ++ polledPageEvents s w.paddr w.sidx bs vs) hrem₁ (hpage₁ ▸ addAW_lt _ _ _) (hsidx₁ ▸ addAW_lt _ _ _)
        rw [hpage₁, hsidx₁] at hrest
        rw [List.append_assoc] at hrun'
        exact ⟨_, _, st, w₂, .page w.paddr w.rem w.sidx bs vs es st hpos hlen hsrc hends hrest,
          (run_add hrun).trans hrun'⟩

/-- The set-up of WRITE_BUFFER (R260, R262). -/
def State.bufferStart (f : Fields) (s : State) : State :=
  { s with rem := (f.a1 + 1) / 2, paddr := s.at f.a0, sidx := 0 }

/-- WRITE_BUFFER starts at the head of its page loop, with no event made. -/
theorem wbStart_accept (f : Fields) (s : State) :
    wbStart (s.accept Opcode.writeBuffer f) = wbNextPage (s.buffering f (s.bufferStart f) []) := by
  rw [State.buffering, State.withEvents_nil]
  rfl

/-- Settles O30: with a base and an even start the request is admitted, the page loop starts with `(len + 1) / 2` words
left, and the response follows it. -/
theorem writeBufferRunsItsPages : Obligations.WriteBufferRunsItsPages := by
  intro s f hready hquiet
  have ⟨_, hf⟩ := hready
  constructor
  · intro hvalid heven
    obtain ⟨n, es, st, w, hbuffer, hpages⟩ := run_pages f hquiet hf ((f.a1 + 1) / 2) (s.bufferStart f) [] rfl
      (addAW_lt _ _ _) (Nat.two_pow_pos _)
    have hrun := run_finished (s := s.withPageRegs w) hready hquiet.2 hpages
    rw [← wbStart_accept] at hrun
    exact ⟨_, n + 1, _, es, st, request_admitted hready (admitsOffset_accept _ hvalid heven), hbuffer, hrun, rfl⟩
  · intro hbad
    exact turnedAway_of_request rfl hready hquiet.2 (admitsOffset_accept_false _ hbad)

end Sys2Proof.Machine
end

section
/-! READ_BUFFER: the byte loop from its head to the response (45_read_path.md R300). The device's answer to each read is
kept, which `run_copyRead` leaves open. -/

namespace Sys2Proof.Machine

/-! What the device answers. -/

/-- What the device answers to a read at `a` that comes after the events `es` (47_flash_device_environment.md R320). -/
def State.answerAfter (es : List Event) (a : Nat) (s : State) : Cell :=
  (s.withEvents es).device.answer s.params.aw (s.withEvents es).busTrace a

/-- Every read among the events `es` has the value that the device gives after the events before it. -/
def State.Answers (s : State) (es : List Event) : Prop :=
  ∀ x a v y, es = x ++ rd a v :: y → v = s.answerAfter x a

theorem State.Answers.nil (s : State) : s.Answers [] := by
  intro x a v y h
  simp at h

theorem State.Answers.concat {s : State} {es : List Event} {e : Event} (hes : s.Answers es)
    (he : ∀ a v, e = rd a v → v = s.answerAfter es a) : s.Answers (es ++ [e]) := by
  intro x a v y h
  obtain rfl | ⟨y, e', rfl⟩ := y.eq_nil_or_concat'
  · obtain ⟨rfl, hread⟩ := List.append_inj' h rfl
    exact he a v (List.cons.inj hread).1
  · rw [← List.cons_append, ← List.append_assoc] at h
    exact hes x a v y (List.append_inj' h rfl).1

theorem State.Answers.concat_read {s : State} {es : List Event} {a : Nat} {v : Cell} (hes : s.Answers es)
    (hv : s.answerAfter es a = v) : s.Answers (es ++ [rd a v]) :=
  hes.concat (by rintro _ _ ⟨⟩; exact hv.symm)

/-- A host event is no read. -/
theorem State.Answers.concat_host {s : State} {es : List Event} (e : HostEvent) (hes : s.Answers es) :
    s.Answers (es ++ [.host e]) :=
  hes.concat nofun

/-! The byte loop. -/

/-- The registers of the byte loop (R300). -/
def State.withCopyRegs (i c : Nat) (v : Cell) (s : State) : State := { s with ridx := i, rcell := c, rdata := v }

/-- The ready block `s` after it has accepted a READ_BUFFER and made the events `es`: byte `i` is next, the cell at `c`
is held and its value is `v`. -/
def State.copying (s : State) (f : Fields) (i c : Nat) (v : Cell) (es : List Event) : State :=
  ((s.withCopyRegs i c v).accept Opcode.readBuffer f).withEvents es

theorem State.copying_concat (s : State) (f : Fields) (i c : Nat) (v : Cell) (es : List Event) (e : Event) :
    s.copying f i c v (es ++ [e]) = (s.copying f i c v es).withEvents [e] :=
  (State.withEvents_withEvents ..).symm

/-- Acceptance is no bus event, so the device answers as if the operation's own events came alone. -/
theorem State.copying_answer (s : State) (f : Fields) (i c : Nat) (v : Cell) (es : List Event) (a : Nat) :
    (s.copying f i c v es).device.answer s.params.aw (s.copying f i c v es).busTrace a = s.answerAfter es a := by
  simp [State.copying, State.answerAfter, State.withCopyRegs, State.withEvents, State.accept, State.busTrace,
    busEvents_append, busEvents]

/-- The head of the loop does not ask where it was come to from. -/
theorem rbNext_goTo (q : Seq) (s : State) : rbNext (s.goTo q) = rbNext s := by
  unfold rbNext
  rfl

/-- After the last byte comes the response. -/
theorem rbNext_done (s : State) (f : Fields) (c : Nat) (v : Cell) (es : List Event) :
    rbNext (s.copying f f.a1 c v es) = (s.copying f f.a1 c v es).reply .success 0 :=
  if_pos rfl

/-- The head of the loop while bytes are left: the byte's cell is read first, or it is the one held. -/
theorem rbNext_left {s : State} {f : Fields} {i : Nat} (c : Nat) (v : Cell) (es : List Event) (hleft : i < f.a1) :
    rbNext (s.copying f i c v es) =
      if i = 0 ∨ cellOf (addAW s.params.aw (s.at f.a0) i) ≠ c then (s.copying f i c v es).goTo .rbCell
      else (s.copying f i c v es).goTo .rbOut :=
  if_neg (Nat.ne_of_lt hleft)

/-- The read of the cell that holds the next byte. -/
theorem step_rbCell {s : State} (f : Fields) (i c : Nat) (v : Cell) (es : List Event) {a : Nat}
    (ha : cellOf (addAW s.params.aw (s.at f.a0) i) = a) (hquiet : s.Quiet) (hf : s.faulted = false) :
    step ((s.copying f i c v es).goTo .rbCell) =
      .next ((s.copying f i a (s.answerAfter es a) (es ++ [rd a (s.answerAfter es a)])).goTo .rbOut) := by
  subst ha
  have hstep := step_quiet (s := (s.copying f i c v es).goTo .rbCell) hquiet.1 hquiet.2 hf (by simp) (by simp)
  rw [hstep, State.copying_concat, ← s.copying_answer f i c v es]
  rfl

/-- The delivery of the next byte, from the cell held. -/
theorem step_rbOut {s : State} {f : Fields} {i : Nat} (c : Nat) (v : Cell) (es : List Event) (hleft : i < f.a1)
    (hlen : f.a1 < 2 ^ s.params.aw) (hquiet : s.Quiet) (hf : s.faulted = false) :
    step ((s.copying f i c v es).goTo .rbOut) =
      .next (rbNext (s.copying f (i + 1) c v
        (es ++ [.host (.dst i (byteAt (addAW s.params.aw (s.at f.a0) i) v))]))) := by
  have hnext : s.plus i 1 = i + 1 := Nat.mod_eq_of_lt (by omega)
  have hstep := step_quiet (s := (s.copying f i c v es).goTo .rbOut) hquiet.1 hquiet.2 hf (by simp) (by simp)
  rw [hstep, ← hnext, ← rbNext_goTo .rbOut, State.copying_concat]
  rfl

/-- The byte loop, from its head with `k` bytes left to the coming response: its events are those of `CopyRun`, and its
reads have the device's answers. -/
theorem run_copy {s : State} (f : Fields) (hlen : f.a1 < 2 ^ s.params.aw) (hquiet : s.Quiet) (hf : s.faulted = false)
    (k : Nat) :
    ∀ (i c : Nat) (v : Cell) (es₀ : List Event), i + k = f.a1 → s.Answers es₀ →
      ∃ n es c' v', CopyRun s.params.aw (s.at f.a0) f.a1 i c v es ∧ s.Answers (es₀ ++ es) ∧
        run n (rbNext (s.copying f i c v es₀)) = .next ((s.copying f f.a1 c' v' (es₀ ++ es)).reply .success 0) := by
  induction k with
  | zero =>
    rintro i c v es₀ rfl hans
    exact ⟨0, [], c, v, .done c v, by simpa using hans, by rw [List.append_nil, rbNext_done]; rfl⟩
  | succ k ih =>
    intro i c v es₀ hi hans
    have hleft : i < f.a1 := by omega
    rw [rbNext_left c v es₀ hleft]
    split
    next hread =>
      generalize ha : cellOf (addAW s.params.aw (s.at f.a0) i) = a at hread
      have hcell := step_rbCell f i c v es₀ ha hquiet hf
      generalize hv : s.answerAfter es₀ a = v' at hcell
      have hout := step_rbOut a v' (es₀ ++ [rd a v']) hleft hlen hquiet hf
      have hans' := (hans.concat_read hv).concat_host (.dst i (byteAt (addAW s.params.aw (s.at f.a0) i) v'))
      obtain ⟨n, es, c', v'', hcopy, hall, hrun⟩ := ih (i + 1) a v' _ (by omega) hans'
      simp only [List.append_assoc] at hout hall hrun
      subst ha
      exact ⟨n + 2, _, c', v'', .read i c v v' es hleft hread hcopy, hall,
        (run_succ hcell).trans ((run_succ hout).trans hrun)⟩
    next hheld =>
      obtain ⟨hpos, hc⟩ := not_or.mp hheld
      have hout := step_rbOut c v es₀ hleft hlen hquiet hf
      have hans' := hans.concat_host (.dst i (byteAt (addAW s.params.aw (s.at f.a0) i) v))
      obtain ⟨n, es, c', v'', hcopy, hall, hrun⟩ := ih (i + 1) c v _ (by omega) hans'
      rw [List.append_assoc] at hall hrun
      exact ⟨n + 1, _, c', v'', .held i c v es hleft hpos (not_not.mp hc) hcopy, hall, (run_succ hout).trans hrun⟩

theorem exec_readBuffer (f : Fields) (s : State) :
    exec (.readBuffer f) s = request Opcode.readBuffer f admitsBase (fun t => rbNext { t with ridx := 0 }) s :=
  rfl

/-- READ_BUFFER from its acceptance to its response: with a base it is admitted and starts at the head of the byte loop
with no event made. -/
theorem exec_readBuffer_run {s : State} {f : Fields} (hready : s.Ready) (hquiet : s.Quiet) (hvalid : s.baseValid = true)
    (hlen : f.a1 < 2 ^ s.params.aw) :
    ∃ t n es c v, exec (.readBuffer f) s = .next t ∧
      CopyRun s.params.aw (s.at f.a0) f.a1 0 s.rcell s.rdata es ∧ s.Answers es ∧
      run n t = .next ((s.withCopyRegs f.a1 c v).finished 0x23 f es .success 0) := by
  obtain ⟨n, es, c, v, hcopy, hans, hrun⟩ :=
    run_copy f hlen hquiet hready.2 f.a1 0 s.rcell s.rdata [] (Nat.zero_add _) (.nil s)
  have hstart : rbNext (s.copying f 0 s.rcell s.rdata []) =
      rbNext { s.accept Opcode.readBuffer f with ridx := 0 } := by
    rw [State.copying, State.withEvents_nil]
    rfl
  rw [hstart] at hrun
  exact ⟨_, n + 1, es, c, v, (exec_readBuffer f s).trans (request_admitted hready hvalid), hcopy, hans,
    run_finished (s := s.withCopyRegs f.a1 c v) hready hquiet.2 hrun⟩

/-- Settles O32, by the byte loop: each of its turns is one of `CopyRun`. -/
theorem readBufferCopies : Obligations.ReadBufferCopies := by
  intro s f hready hquiet
  constructor
  · intro hvalid hlen
    obtain ⟨t, n, es, c, v, hexec, hcopy, _, hrun⟩ := exec_readBuffer_run hready hquiet hvalid hlen
    exact ⟨t, n, _, es, s.rcell, s.rdata, hexec, hcopy, hrun, rfl⟩
  · intro hinvalid
    exact turnedAway_of_request (exec_readBuffer f s) hready hquiet.2 hinvalid

end Sys2Proof.Machine
end

section
/-! The events of READ_BUFFER as `CopyRun` has them: their reads, their deliveries and the cells they go to
(45_read_path.md R300, R301). -/

namespace Sys2Proof.Machine

/-- Every bus event is a read. -/
theorem CopyRun.busEvents_read {aw a n i c : Nat} {v : Cell} {es : List Event} (h : CopyRun aw a n i c v es) :
    ∀ e ∈ busEvents es, ∃ b w, e = .r b w := by
  induction h with
  | done => exact nofun
  | read i c v v' es _ _ _ ih => exact List.forall_mem_cons.mpr ⟨⟨_, _, rfl⟩, ih⟩
  | held i c v es _ _ _ _ ih => exact ih

/-- Every host event is a delivery. -/
theorem CopyRun.hostEvents_dst {aw a n i c : Nat} {v : Cell} {es : List Event} (h : CopyRun aw a n i c v es) :
    ∀ e ∈ hostEvents es, ∃ j b, e = .dst j b := by
  induction h with
  | done => exact nofun
  | read i c v v' es _ _ _ ih => exact List.forall_mem_cons.mpr ⟨⟨_, _, rfl⟩, ih⟩
  | held i c v es _ _ _ _ ih => exact List.forall_mem_cons.mpr ⟨⟨_, _, rfl⟩, ih⟩

/-- Each byte left is delivered once. -/
theorem CopyRun.hostEvents_length {aw a n i c : Nat} {v : Cell} {es : List Event} (h : CopyRun aw a n i c v es) :
    i + (hostEvents es).length = n := by
  induction h with
  | done => rfl
  | read i c v v' es _ _ _ ih => rw [← ih, Nat.add_right_comm]; rfl
  | held i c v es _ _ _ _ ih => rw [← ih, Nat.add_right_comm]; rfl

/-! The cells of a range that does not wrap (R301). -/

/-- The even addresses from twice `k` on, `m` of them. -/
def cellsFrom (k m : Nat) : List Nat := (List.range' k m).map (2 * ·)

theorem cellsFrom_succ (k m : Nat) : cellsFrom k (m + 1) = 2 * k :: cellsFrom (k + 1) m := rfl

theorem cellsFrom_eq_range (k m : Nat) : cellsFrom k m = (List.range m).map (fun j => 2 * k + 2 * j) := by
  simp [cellsFrom, List.range'_eq_map_range, Nat.mul_add]

theorem cellOf_eq (a : Nat) : cellOf a = 2 * (a / 2) := by
  unfold cellOf
  omega

/-- After byte `p`, whose cell is held, the cells read are those after it up to that of the last byte. -/
theorem CopyRun.busAddr_after {aw a n i c p : Nat} {v : Cell} {es : List Event} (h : CopyRun aw a n i c v es)
    (hwrap : a + n ≤ 2 ^ aw) (hi : i = p + 1) (hc : c = cellOf (a + p)) :
    (busEvents es).map busAddr = cellsFrom ((a + p) / 2 + 1) ((a + n - 1) / 2 - (a + p) / 2) := by
  induction h generalizing p with
  | done => rw [hi, ← Nat.add_assoc, Nat.add_sub_cancel, Nat.sub_self]; rfl
  | read i c v v' es hleft hread _ ih =>
    have haddr : addAW aw a i = a + i := Nat.mod_eq_of_lt (by omega)
    rw [haddr, hc, cellOf_eq, cellOf_eq] at hread
    have hcell : (a + i) / 2 = (a + p) / 2 + 1 := by omega
    have hcount : (a + n - 1) / 2 - (a + p) / 2 = (a + n - 1) / 2 - (a + i) / 2 + 1 := by omega
    rw [hcount, cellsFrom_succ, ← hcell, ← cellOf_eq, ← ih rfl (congrArg cellOf haddr), ← haddr]
    rfl
  | held i c v es hleft _ hheld _ ih =>
    have haddr : addAW aw a i = a + i := Nat.mod_eq_of_lt (by omega)
    rw [haddr, hc, cellOf_eq, cellOf_eq] at hheld
    have hcell : (a + i) / 2 = (a + p) / 2 := by omega
    rw [← hcell]
    exact ih rfl (by rw [hc, cellOf_eq, cellOf_eq, hcell])

/-- The cells read are those from the first byte's to the last's. -/
theorem CopyRun.busAddrs {aw a n c : Nat} {v : Cell} {es : List Event} (h : CopyRun aw a n 0 c v es)
    (hwrap : a + n ≤ 2 ^ aw) :
    (busEvents es).map busAddr = cellsFrom (a / 2) (if n = 0 then 0 else (a + n - 1) / 2 - a / 2 + 1) := by
  cases h with
  | done => rfl
  | read _ _ _ v' es hleft _ hrest =>
    have haddr : addAW aw a 0 = a := Nat.mod_eq_of_lt (by omega)
    have hcells : (busEvents es).map busAddr = cellsFrom (a / 2 + 1) ((a + n - 1) / 2 - a / 2) :=
      hrest.busAddr_after hwrap (p := 0) rfl (congrArg cellOf haddr)
    rw [if_neg (Nat.ne_of_gt hleft), cellsFrom_succ, ← cellOf_eq, ← hcells, ← congrArg cellOf haddr]
    rfl
  | held _ _ _ _ _ h0 => exact absurd rfl h0

/-- Settles O33: the events are those of O32, whose reads and deliveries are counted. -/
theorem readBufferReadsEachCellOnce : Obligations.ReadBufferReadsEachCellOnce := by
  intro s f hready hquiet hvalid hwrap hlen
  obtain ⟨t, n, u, es, c, v, hexec, hcopy, hrun, hu⟩ := (readBufferCopies s f hready hquiet).1 hvalid hlen
  refine ⟨t, n, u, es, hexec, hrun, ?idle, ?trace, ?cells, hcopy.busEvents_read, ?bytes, hcopy.hostEvents_dst⟩
  case idle => rw [hu]; exact hready.1
  case trace => rw [hu]; rfl
  case cells => rw [hcopy.busAddrs hwrap, cellsFrom_eq_range, ← cellOf_eq]
  case bytes => rw [← hcopy.hostEvents_length, Nat.zero_add]

end Sys2Proof.Machine
end

section
/-! READ_BUFFER over the reference responder in read-array mode, not busy: its reads leave the device as it is and give
the stored cells (45_read_path.md R300, 47_flash_device_environment.md R333). -/

namespace Sys2Proof.Machine

/-! The device. -/

/-- The responder in read-array mode with nothing in progress. -/
def Device.ReadsArray (dv : Device) : Prop := dv.law = .responder ∧ dv.mode = .array ∧ dv.busy.isDone = true

theorem Device.ReadsArray.afterRead {dv : Device} (h : dv.ReadsArray) : dv.afterRead = dv := by
  obtain ⟨hlaw, hmode, hdone⟩ := h
  simp [Device.afterRead, Device.isFree, hlaw, hmode, hdone]

theorem Device.ReadsArray.answer {dv : Device} (h : dv.ReadsArray) (aw : Nat) (bt : List BusEvent) (a : Nat) :
    dv.answer aw bt a = dv.storedCell a := by
  obtain ⟨hlaw, hmode, hdone⟩ := h
  simp [Device.answer, Device.respAnswer, Device.isFree, hlaw, hmode, hdone]

/-- Reads alone leave it as it is. -/
theorem Device.ReadsArray.seen {dv : Device} (h : dv.ReadsArray) (aw : Nat) {es : List Event}
    (hreads : ∀ e ∈ busEvents es, ∃ a v, e = .r a v) : Device.seen aw es dv = dv := by
  induction es with
  | nil => rfl
  | cons e es ih =>
    cases e with
    | host e => exact ih hreads
    | bus e =>
      obtain ⟨⟨a, v, rfl⟩, hrest⟩ := List.forall_mem_cons.mp hreads
      rw [Device.seen, h.afterRead, ih hrest]

/-- Every read of an operation that only reads has the stored cell as its value. -/
theorem Device.ReadsArray.value_of_read {s : State} {es : List Event} (h : s.device.ReadsArray) (hans : s.Answers es)
    (hreads : ∀ e ∈ busEvents es, ∃ a v, e = .r a v) {a : Nat} {v : Cell} (hmem : rd a v ∈ es) :
    v = s.device.storedCell a := by
  obtain ⟨x, y, rfl⟩ := List.append_of_mem hmem
  have hstill : (s.withEvents x).device = s.device :=
    h.seen _ fun e he => hreads e (by rw [busEvents_append]; exact List.mem_append_left _ he)
  rw [hans x a v y rfl, State.answerAfter, hstill, h.answer]

/-- A byte of a stored cell is the stored byte (20_memory.md R65). -/
theorem byteAt_storedCell (dv : Device) (a : Nat) : byteAt a (dv.storedCell (cellOf a)) = dv.stored a := by
  unfold byteAt Device.storedCell cellKey
  split
  next heven =>
    rw [isEven_iff] at heven
    rw [lowByte_joinBytes, show cellOf (cellOf a) = a by unfold cellOf; omega]
  next hodd =>
    rw [isEven_iff] at hodd
    rw [highByte_joinBytes, show cellOf (cellOf a) + 1 = a by unfold cellOf; omega]

/-! The bytes delivered. -/

/-- Where a read of a cell gives its value under `m`, the bytes left are delivered in order, each from its cell. -/
theorem CopyRun.hostEvents_eq {aw a n i c : Nat} {v : Cell} {es : List Event} (h : CopyRun aw a n i c v es)
    (m : Nat → Cell) (hread : ∀ b w, rd b w ∈ es → w = m b) (hheld : i ≠ 0 → v = m c) :
    hostEvents es =
      (List.range' i (n - i)).map fun j => .dst j (byteAt (addAW aw a j) (m (cellOf (addAW aw a j)))) := by
  induction h with
  | done => rw [Nat.sub_self]; rfl
  | read i c v v' es hleft _ _ ih =>
    have hv : v' = m (cellOf (addAW aw a i)) := hread _ _ List.mem_cons_self
    have hrest := ih (fun b w hb => hread b w (.tail _ (.tail _ hb))) fun _ => hv
    rw [show n - i = n - (i + 1) + 1 by omega, List.range'_succ, List.map_cons, ← hrest, ← hv]
    rfl
  | held i c v es hleft hpos hc _ ih =>
    have hrest := ih (fun b w hb => hread b w (.tail _ hb)) fun _ => hheld hpos
    rw [show n - i = n - (i + 1) + 1 by omega, List.range'_succ, List.map_cons, ← hrest, hc, ← hheld hpos]
    rfl

/-- Settles O34: every read has the stored cell as its value, so each delivery is the stored byte, and the reads leave
the device as it was. -/
theorem readBufferIsAFlatCopy : Obligations.ReadBufferIsAFlatCopy := by
  intro s f hready hquiet hvalid hlen hlaw hmode hdone
  have harray : s.device.ReadsArray := ⟨hlaw, hmode, hdone⟩
  obtain ⟨t, n, es, c, v, hexec, hcopy, hans, hrun⟩ := exec_readBuffer_run hready hquiet hvalid hlen
  have hhost := hcopy.hostEvents_eq s.device.storedCell
    (fun _ _ => harray.value_of_read hans hcopy.busEvents_read) (fun h => absurd rfl h)
  simp only [byteAt_storedCell, Nat.sub_zero, ← List.range_eq_range'] at hhost
  refine ⟨t, n, _, hexec, hrun, hready.1, rfl, harray.seen _ hcopy.busEvents_read, ?_⟩
  calc hostEvents (s.trace ++ reqEvent 0x23 f :: (es ++ [respEvent .success 0]))
    _ = s.hostTrace ++ .req 0x23 f.kind f.a0 f.a1 f.d :: hostEvents es ++ [.resp .success 0] := by
      simp [hostEvents_append, hostEvents, State.hostTrace, reqEvent, respEvent]
    _ = _ := by rw [hhost]; rfl

end Sys2Proof.Machine
end

section
/-! A bus read of a step is the device's answer, and what a step can do to the device
(47_flash_device_environment.md R320, R331). -/

namespace Sys2Proof.Machine

/-- At a position of a bus read the event is that read. -/
theorem event_read {s : State} {a : Nat} (hk : s.seq.cycle = none) (ha : s.comingRead = some a) :
    s.event = s.busRead a := by
  simp only [State.event, hk, ha]

/-- The read that the event of a busy block makes is a bus read, with the value that read gives. -/
theorem event_read_cases {s : State} {a : Nat} {v : Cell} (hidle : s.seq ≠ .idle) (hfault : s.seq ≠ .faulted)
    (hresp : ∀ st res, s.seq ≠ .respond st res) (h : s.event.trace = s.trace ++ [rd a v]) :
    s.event = s.busRead a ∧ v = s.readValue a := by
  obtain ⟨k, _, h'⟩ | ⟨hk, b, hb, h'⟩ | ⟨_, h'⟩ | ⟨_, _, h', _⟩ | h' | h' | ⟨st, res, h'⟩ := event_trace s
  · simp [h', wr, rd] at h
  · obtain ⟨rfl, rfl⟩ : a = b ∧ v = s.readValue b := by simpa [rd] using h.symm.trans h'
    exact ⟨event_read hk hb, rfl⟩
  · simp [h', wr, rd] at h
  · simp [h', rd] at h
  · exact absurd h' hidle
  · exact absurd h' hfault
  · exact absurd h' (hresp st res)

/-- Without a bus fault a read gives the device's answer. -/
theorem readValue_unfaulted {s : State} (a : Nat) (hfault : s.busFaulting = false) :
    s.readValue a = s.device.answer s.params.aw s.busTrace a := by
  simp [State.readValue, hfault]

/-- Settles O48: a hardware reset, an acceptance and a response read nothing, so the read is that of the event of a busy
block, which is a bus read. -/
theorem readsAreTheDevicesAnswers : Obligations.ReadsAreTheDevicesAnswers := by
  intro s t a v h hread
  obtain ⟨_, rfl⟩ | ⟨_, hf, ⟨hidle, h⟩ | ⟨st, res, _, rfl⟩ | ⟨hidle, hfault, hresp, rfl⟩⟩ := step_cases h
  case inl => simp at hread
  case inr.inl =>
    obtain ⟨_, rfl⟩ | ⟨r, rest, _, hstart⟩ := stepIdle_cases (s := s.popReset) ⟨hidle, hf⟩ h
    · simp at hread
    · simp [hstart.trace_eq, rd] at hread
  case inr.inr.inl => simp [rd] at hread
  case inr.inr.inr =>
    obtain ⟨hev, rfl⟩ := event_read_cases (s := s.popReset) hidle hfault hresp (by simpa using hread)
    exact ⟨by simp [hev], by simp [hev], readValue_unfaulted (s := s.popReset) a⟩

/-- Everything the event of a busy block can do to the device: nothing, a bus write, or a bus read. -/
theorem event_device_cases (s : State) :
    s.event.device = s.device ∨ (∃ a v, s.event.device = s.device.write s.params.aw a v) ∨
      s.event.device = s.device.afterRead := by
  unfold State.event
  split
  case h_1 k _ =>
    refine .inr (.inl ⟨s.cycleAddr k, s.cycleValue k, ?_⟩)
    cases k <;> simp [State.writeCycle, State.beforeCycle]
  case h_2 =>
    split
    case h_1 => exact .inr (.inr (by simp))
    case h_2 =>
      split
      case h_1 => exact .inr (.inl ⟨s.a0, s.d, by simp⟩)
      all_goals exact .inl (by simp)

/-- Settles O51, by the principle for invariants: only a busy block's event reaches the device, and a bus write and a
bus read keep its array canonical. -/
theorem stepKeepsArrayCanonical : Obligations.StepKeepsArrayCanonical := by
  intro s t hs h
  refine step_inv (P := ArrayCanonical) ?reset ?pop ?take ?accept ?start ?respond ?event hs h
  case reset => exact fun u hu => hu
  case pop => exact fun u hu => hu
  case take => exact fun u _ _ hu _ => hu
  case accept => exact fun u _ _ hu _ => hu
  case start =>
    intro u v _ _ hu hstart
    rw [ArrayCanonical, hstart.device_eq]
    exact hu
  case respond => exact fun u _ _ hu _ => hu
  case event =>
    intro u _ _ _ _ hu
    rw [ArrayCanonical, settled_device]
    obtain hdev | ⟨a, v, hdev⟩ | hdev := event_device_cases u <;> rw [hdev]
    · exact hu
    · exact Device.wf_write a v hu
    · exact Device.wf_afterRead hu

/-- Settles O57, by the laws of the array: each byte write keeps the canonical form and changes its own byte alone. -/
theorem arrayReadAfterWrite : Obligations.ArrayReadAfterWrite :=
  fun m a v hm =>
    ⟨Memory.wf_writeCell a v hm, Memory.readCell_writeCell_same m a v, Memory.readByte_writeCell_other m a v⟩

end Sys2Proof.Machine
end

section
/-! What the reference responder makes of the bus writes of an unlock, of a reset and of a command after an unlock
(47_flash_device_environment.md R324, R332). -/

namespace Sys2Proof.Machine

/-! ## One write -/

/-- The offset of an address of the sequences, where an address has at least 12 bits. -/
theorem Device.offset_of_wide {aw o : Nat} (dv : Device) (haw : 12 ≤ aw) (ho : o < 2 ^ 12) :
    dv.offset aw (addAW aw dv.rbase o) = o :=
  dv.offset_addAW (lt_of_lt_of_le ho (Nat.pow_le_pow_right (by decide) haw))

/-- What R332 makes of a write, or the stop of `RESP` where it has no line for it. -/
def Device.taken (aw : Nat) (dv : Device) (a : Nat) (v : Cell) : Device := (dv.respWrite aw a v).getD (dv.stray aw a v)

theorem Device.taken_of_some {aw a : Nat} {dv t : Device} {v : Cell} (h : dv.respWrite aw a v = some t) :
    dv.taken aw a v = t := by
  rw [Device.taken, h, Option.getD_some]

theorem Device.taken_of_none {aw a : Nat} {dv : Device} {v : Cell} (h : dv.respWrite aw a v = none) :
    dv.taken aw a v = dv.stray aw a v := by
  rw [Device.taken, h, Option.getD_none]

theorem Device.taken_keeps (aw : Nat) (dv : Device) (a : Nat) (v : Cell) :
    (dv.taken aw a v).law = dv.law ∧ (dv.taken aw a v).rbase = dv.rbase := by
  cases h : dv.respWrite aw a v with
  | none => simp [Device.taken_of_none h]
  | some t => simpa [Device.taken_of_some h] using Device.respWrite_keeps h

@[simp] theorem Device.taken_law (aw : Nat) (dv : Device) (a : Nat) (v : Cell) : (dv.taken aw a v).law = dv.law :=
  (dv.taken_keeps aw a v).1

@[simp] theorem Device.taken_rbase (aw : Nat) (dv : Device) (a : Nat) (v : Cell) : (dv.taken aw a v).rbase = dv.rbase :=
  (dv.taken_keeps aw a v).2

/-- A write that does not end a reset is R332's. -/
theorem Device.write_eq_taken {aw a : Nat} {dv : Device} {v : Cell} (hlaw : dv.law = .responder)
    (hreset : ¬(dv.heard = .both ∧ dv.isReset aw a v = true)) :
    dv.write aw a v = (dv.taken aw a v).hearing (dv.hear aw a v) := by
  simp only [Device.write, hlaw, if_neg hreset, Device.taken]

/-- A write is no reset where it is not at the base. -/
theorem Device.isReset_of_offset {aw a : Nat} {dv : Device} (v : Cell) (ho : dv.offset aw a ≠ 0) :
    dv.isReset aw a v = false := by
  simp [Device.isReset, ho]

theorem Device.write_unlock1 {aw a : Nat} {dv : Device} (hlaw : dv.law = .responder) (ho : dv.offset aw a = 0xAAA) :
    dv.write aw a Config.unlock1Value = (dv.taken aw a Config.unlock1Value).hearing .first := by
  have hreset := Device.isReset_of_offset (aw := aw) (dv := dv) (a := a) Config.unlock1Value (by simp [ho])
  have hhear : dv.hear aw a Config.unlock1Value = .first := by
    simp [Device.hear, Device.isUnlock1, ho, Config.unlock1Offset]
  rw [Device.write_eq_taken hlaw (by simp [hreset]), hhear]

theorem Device.write_unlock2 {aw a : Nat} {dv : Device} (hlaw : dv.law = .responder) (hheard : dv.heard = .first)
    (ho : dv.offset aw a = 0x554) :
    dv.write aw a Config.unlock2Value = (dv.taken aw a Config.unlock2Value).hearing .both := by
  have hhear : dv.hear aw a Config.unlock2Value = .both := by
    simp [Device.hear, Device.isUnlock1, Device.isUnlock2, ho, hheard, Config.unlock1Offset, Config.unlock2Offset]
  rw [Device.write_eq_taken hlaw (by simp [hheard]), hhear]

theorem Device.write_reset {aw : Nat} {dv : Device} (hlaw : dv.law = .responder) (hheard : dv.heard = .both) :
    dv.write aw dv.rbase Config.resetValue = dv.reset.hearing .nothing := by
  have hreset : dv.isReset aw dv.rbase Config.resetValue = true := by simp [Device.isReset]
  simp only [Device.write, hlaw, if_pos (And.intro hheard hreset)]

/-! ## The unlock and the reset -/

/-- The responder after the first unlock cycle. -/
def Device.unlock1 (aw : Nat) (dv : Device) : Device :=
  (dv.taken aw (addAW aw dv.rbase 0xAAA) Config.unlock1Value).hearing .first

/-- The responder after the second unlock cycle, the first having come just before. -/
def Device.unlock2 (aw : Nat) (dv : Device) : Device :=
  (dv.taken aw (addAW aw dv.rbase 0x554) Config.unlock2Value).hearing .both

@[simp] theorem Device.unlock1_law (aw : Nat) (dv : Device) : (dv.unlock1 aw).law = dv.law := dv.taken_law aw _ _
@[simp] theorem Device.unlock1_rbase (aw : Nat) (dv : Device) : (dv.unlock1 aw).rbase = dv.rbase :=
  dv.taken_rbase aw _ _
@[simp] theorem Device.unlock2_law (aw : Nat) (dv : Device) : (dv.unlock2 aw).law = dv.law := dv.taken_law aw _ _
@[simp] theorem Device.unlock2_rbase (aw : Nat) (dv : Device) : (dv.unlock2 aw).rbase = dv.rbase :=
  dv.taken_rbase aw _ _

theorem Device.seen_unlock {aw : Nat} {dv : Device} (haw : 12 ≤ aw) (hlaw : dv.law = .responder) :
    Device.seen aw (unlockEvents aw dv.rbase) dv = (dv.unlock1 aw).unlock2 aw := by
  have h1 : dv.write aw (addAW aw dv.rbase 0xAAA) 0x00AA = dv.unlock1 aw :=
    Device.write_unlock1 hlaw (dv.offset_of_wide haw (by decide))
  have h2 : (dv.unlock1 aw).write aw (addAW aw (dv.unlock1 aw).rbase 0x554) 0x0055 = (dv.unlock1 aw).unlock2 aw :=
    Device.write_unlock2 (by simpa using hlaw) rfl (Device.offset_of_wide _ haw (by decide))
  rw [Device.unlock1_rbase] at h2
  simp only [unlockEvents, wr, Device.seen, h1, h2]

/-- From any state: the third cycle is heard as the end of a reset. -/
theorem Device.seen_reset {aw : Nat} {dv : Device} (haw : 12 ≤ aw) (hlaw : dv.law = .responder) :
    Device.seen aw (resetEvents aw dv.rbase) dv = ((dv.unlock1 aw).unlock2 aw).reset.hearing .nothing := by
  have h3 := Device.write_reset (aw := aw) (dv := (dv.unlock1 aw).unlock2 aw) (by simpa using hlaw) rfl
  rw [Device.unlock2_rbase, Device.unlock1_rbase] at h3
  rw [resetEvents, Device.seen_append, Device.seen_unlock haw hlaw]
  exact h3

/-- The mode that an unlock begun in `back` begins in (R331). -/
def UnlockFrom.mode : UnlockFrom → DevMode
  | .array => .array
  | .id => .id
  | .cfi => .cfi
  | .ers1 => .ers1

/-- Where an unlock may begin its first cycle is taken, and changes nothing else. -/
theorem Device.unlock1_of_start {aw : Nat} {dv : Device} {b : UnlockFrom} (haw : 12 ≤ aw) (hmode : dv.mode = b.mode) :
    dv.unlock1 aw = { dv with back := b, mode := .u1, heard := .first } := by
  have ho := dv.offset_of_wide (o := 0xAAA) haw (by decide)
  have htaken : dv.respWrite aw (addAW aw dv.rbase 0xAAA) Config.unlock1Value =
      some { dv with back := b, mode := .u1 } := by
    cases b <;> simp only [UnlockFrom.mode] at hmode <;>
      simp [Device.respWrite, hmode, Device.unlockFrom, Device.isUnlock1, ho, Config.unlock1Offset,
        Config.cfiEntryOffset]
  rw [Device.unlock1, Device.taken_of_some htaken, Device.hearing]

/-- After its first cycle the second is taken, and changes nothing else. -/
theorem Device.unlock2_of_u1 {aw : Nat} {dv : Device} (haw : 12 ≤ aw) (hmode : dv.mode = .u1) :
    dv.unlock2 aw = { dv with mode := .u2, heard := .both } := by
  have ho := dv.offset_of_wide (o := 0x554) haw (by decide)
  have htaken : dv.respWrite aw (addAW aw dv.rbase 0x554) Config.unlock2Value = some { dv with mode := .u2 } := by
    simp [Device.respWrite, hmode, Device.isUnlock2, ho, Config.unlock2Offset]
  rw [Device.unlock2, Device.taken_of_some htaken, Device.hearing]

theorem Device.seen_unlock_of_start {aw : Nat} {dv : Device} {b : UnlockFrom} (haw : 12 ≤ aw)
    (hlaw : dv.law = .responder) (hmode : dv.mode = b.mode) :
    Device.seen aw (unlockEvents aw dv.rbase) dv = { dv with back := b, mode := .u2, heard := .both } := by
  rw [Device.seen_unlock haw hlaw, Device.unlock1_of_start haw hmode, Device.unlock2_of_u1 haw rfl]

end Sys2Proof.Machine
end

section
/-! The reset sequence from any state of the responder, and the writes at which `RESP` stops
(47_flash_device_environment.md R324, R330, R334). -/

namespace Sys2Proof.Machine

/-! ## An array that stays -/

/-- `t` has the array of `dv`, with the same bytes unknown. -/
def Device.SameArray (dv t : Device) : Prop :=
  t.arr = dv.arr ∧ t.lost = dv.lost ∧ t.since = dv.since ∧ t.losses = dv.losses

theorem Device.SameArray.trans {dv t u : Device} (h : dv.SameArray t) (h' : t.SameArray u) : dv.SameArray u := by
  obtain ⟨harr, hlost, hsince, hlosses⟩ := h
  obtain ⟨harr', hlost', hsince', hlosses'⟩ := h'
  exact ⟨harr'.trans harr, hlost'.trans hlost, hsince'.trans hsince, hlosses'.trans hlosses⟩

theorem Device.SameArray.stored {dv t : Device} (h : dv.SameArray t) (k : Nat) : t.stored k = dv.stored k := by
  obtain ⟨harr, hlost, hsince, hlosses⟩ := h
  simp only [Device.stored, harr, hlost, hsince, hlosses]

/-- An unlock that starts afresh keeps the array. -/
theorem Device.stray_of_restarts {aw a : Nat} {dv : Device} {v : Cell} (h : dv.restarts aw a v = true) :
    dv.stray aw a v = { dv with mode := .astray, busy := .reads 0, pend := [] } := by
  simp [Device.stray, h]

/-- A mode in which the first cycle of a reset leaves the array: an unlock may begin there, a page is loading, or
nothing is in progress and the count of a page, its confirm cycle or a command after an unlock is next. -/
def Device.TakesUnlock1 (dv : Device) : Prop :=
  (dv.mode = .array ∨ dv.mode = .id ∨ dv.mode = .cfi ∨ dv.mode = .ers1) ∨ (dv.mode = .wbData ∧ 0 < dv.wbn) ∨
    (dv.busy.isDone = true ∧ (dv.mode = .wbCnt ∨ dv.mode = .wbConf ∨ (dv.mode = .u2 ∧ dv.heard = .both)))

/-- The same of the second cycle, the first having come just before. -/
def Device.TakesUnlock2 (dv : Device) : Prop :=
  dv.mode = .u1 ∨ dv.mode = .astray ∨ dv.mode = .wbConf ∨ (dv.mode = .wbData ∧ 0 < dv.wbn)

/-- A word of a page is only pending, and the next word or the confirm cycle follows. -/
theorem Device.taken_wbData {aw : Nat} {dv : Device} (a : Nat) (v : Cell) (hmode : dv.mode = .wbData)
    (hleft : 0 < dv.wbn) : dv.SameArray (dv.taken aw a v) ∧ (dv.taken aw a v).TakesUnlock2 := by
  have htaken : dv.respWrite aw a v = some { dv with
      pend := dv.pend ++ [.cell a v], wbn := dv.wbn - 1, mode := if dv.wbn - 1 = 0 then .wbConf else .wbData } := by
    simp [Device.respWrite, hmode, hleft]
  rw [Device.taken_of_some htaken]
  refine ⟨⟨rfl, rfl, rfl, rfl⟩, ?_⟩
  by_cases hlast : dv.wbn - 1 = 0
  · simp [Device.TakesUnlock2, hlast]
  · simp [Device.TakesUnlock2, hlast, Nat.pos_of_ne_zero hlast]

/-- An unlock that starts afresh, where R332 has no line for it. -/
theorem Device.taken_of_restarts {aw a : Nat} {dv : Device} {v : Cell} (hnone : dv.respWrite aw a v = none)
    (hrestarts : dv.restarts aw a v = true) : dv.SameArray (dv.taken aw a v) ∧ (dv.taken aw a v).TakesUnlock2 := by
  rw [Device.taken_of_none hnone, Device.stray_of_restarts hrestarts]
  exact ⟨⟨rfl, rfl, rfl, rfl⟩, .inr (.inl rfl)⟩

/-- After an unlock R332 has no line for a first unlock cycle. -/
theorem Device.command_unlock1 {aw a : Nat} {dv : Device} (ho : dv.offset aw a = 0xAAA) :
    dv.command aw a Config.unlock1Value = none := by
  have hreset := Device.isReset_of_offset (aw := aw) (dv := dv) (a := a) Config.unlock1Value (by rw [ho]; decide)
  simp only [Device.command, hreset]
  simp [lowByte, Config.unlock1Value, Config.eraseConfirmValue, Config.idEntryValue, Config.wordPgmValue,
    Config.eraseSetupValue, Config.wbLoadValue]

/-- The first cycle of a reset where a page's count or its confirm cycle is next, or a command after an unlock: it is a
count, or it starts an unlock afresh. -/
theorem Device.unlock1_sameArray_of_done {aw : Nat} {dv : Device} (haw : 12 ≤ aw) (hdone : dv.busy.isDone = true)
    (hmode : dv.mode = .wbCnt ∨ dv.mode = .wbConf ∨ (dv.mode = .u2 ∧ dv.heard = .both)) :
    dv.SameArray (dv.unlock1 aw) ∧ (dv.unlock1 aw).TakesUnlock2 := by
  have ho := dv.offset_of_wide (o := 0xAAA) haw (by decide)
  have hrestarts : dv.restarts aw (addAW aw dv.rbase 0xAAA) Config.unlock1Value = true := by
    have hafresh : dv.heard = .both ∨ dv.mode = .wbCnt ∨ dv.mode = .wbConf := by tauto
    simp [Device.restarts, hafresh, hdone, Device.isUnlock1, ho, Config.unlock1Offset]
  obtain hm | hm | ⟨hm, _⟩ := hmode
  · by_cases hcount : addAW aw dv.rbase 0xAAA = dv.wbp
    · have htaken : dv.respWrite aw (addAW aw dv.rbase 0xAAA) Config.unlock1Value =
          some { dv with wbn := Config.unlock1Value.toNat + 1, mode := .wbData } := by
        simp [Device.respWrite, hm, hcount]
      rw [Device.unlock1, Device.taken_of_some htaken]
      exact ⟨⟨rfl, rfl, rfl, rfl⟩, .inr (.inr (.inr ⟨rfl, Nat.succ_pos _⟩))⟩
    · exact Device.taken_of_restarts (by simp [Device.respWrite, hm, hcount]) hrestarts
  · refine Device.taken_of_restarts ?_ hrestarts
    simp [Device.respWrite, hm, show lowByte Config.unlock1Value ≠ lowByte Config.wbConfirmValue by decide]
  · exact Device.taken_of_restarts (by simp only [Device.respWrite, hm, Device.command_unlock1 ho]) hrestarts

theorem Device.unlock1_sameArray {aw : Nat} {dv : Device} (haw : 12 ≤ aw) (h : dv.TakesUnlock1) :
    dv.SameArray (dv.unlock1 aw) ∧ (dv.unlock1 aw).TakesUnlock2 := by
  have hstart : ∀ b : UnlockFrom, dv.mode = b.mode →
      dv.SameArray (dv.unlock1 aw) ∧ (dv.unlock1 aw).TakesUnlock2 := by
    intro b hmode
    rw [Device.unlock1_of_start haw hmode]
    exact ⟨⟨rfl, rfl, rfl, rfl⟩, .inl rfl⟩
  obtain (hm | hm | hm | hm) | ⟨hm, hleft⟩ | ⟨hdone, hm⟩ := h
  · exact hstart .array hm
  · exact hstart .id hm
  · exact hstart .cfi hm
  · exact hstart .ers1 hm
  · exact Device.taken_wbData _ _ hm hleft
  · exact Device.unlock1_sameArray_of_done haw hdone hm

theorem Device.unlock2_sameArray {aw : Nat} {dv : Device} (haw : 12 ≤ aw) (hheard : dv.heard = .first)
    (h : dv.TakesUnlock2) : dv.SameArray (dv.unlock2 aw) := by
  have ho := dv.offset_of_wide (o := 0x554) haw (by decide)
  have hrestarts (hm : dv.mode = .astray ∨ dv.mode = .wbConf) :
      dv.restarts aw (addAW aw dv.rbase 0x554) Config.unlock2Value = true := by
    simp [Device.restarts, hm, hheard, Device.isUnlock2, ho, Config.unlock2Offset]
  obtain hm | hm | hm | ⟨hm, hleft⟩ := h
  · rw [Device.unlock2_of_u1 haw hm]
    exact ⟨rfl, rfl, rfl, rfl⟩
  · exact (Device.taken_of_restarts (by simp [Device.respWrite, hm]) (hrestarts (.inl hm))).1
  · refine (Device.taken_of_restarts ?_ (hrestarts (.inr hm))).1
    simp [Device.respWrite, hm, show lowByte Config.unlock2Value ≠ lowByte Config.wbConfirmValue by decide]
  · exact (Device.taken_wbData _ _ hm hleft).1

/-! ## An array that is lost -/

/-- Every byte of the array is unknown. -/
def Device.LostArray (dv : Device) : Prop := dv.lost = true ∧ dv.since = []

theorem Device.stray_lostArray {aw a : Nat} {dv : Device} {v : Cell} (h : dv.restarts aw a v = false ∨ dv.LostArray) :
    (dv.stray aw a v).LostArray := by
  cases hr : dv.restarts aw a v
  · simp [Device.stray, hr, Device.loseArray, Device.LostArray]
  · rw [Device.stray_of_restarts hr]
    exact h.resolve_left (by simp [hr])

/-- While the answers are free every write but the end of a reset leaves them so, and a lost array lost. -/
theorem Device.taken_astray {aw : Nat} {dv : Device} (a : Nat) (v : Cell) (hmode : dv.mode = .astray) :
    (dv.taken aw a v).mode = .astray ∧ (dv.LostArray → (dv.taken aw a v).LostArray) := by
  rw [Device.taken_of_none (by simp [Device.respWrite, hmode])]
  exact ⟨Device.stray_mode aw dv a v, fun hlost => Device.stray_lostArray (.inr hlost)⟩

theorem Device.unlock_lostArray {aw : Nat} {dv : Device} (hmode : dv.mode = .astray) (hlost : dv.LostArray) :
    ((dv.unlock1 aw).unlock2 aw).LostArray := by
  obtain ⟨hmode1, hlost1⟩ := dv.taken_astray (aw := aw) (addAW aw dv.rbase 0xAAA) Config.unlock1Value hmode
  obtain ⟨-, hlost2⟩ := (dv.unlock1 aw).taken_astray (aw := aw) (addAW aw (dv.unlock1 aw).rbase 0x554)
    Config.unlock2Value hmode1
  exact hlost2 (hlost1 hlost)

/-! ## The reset, and the stop -/

theorem Device.isFree_responder {dv : Device} (hlaw : dv.law = .responder) : dv.isFree = true ↔ dv.mode = .astray := by
  simp [Device.isFree, hlaw]

/-- A write at which `RESP` stops. -/
theorem Device.write_of_stop {aw a : Nat} {dv : Device} {v : Cell} (hlaw : dv.law = .responder)
    (hstop : dv.respWrite aw a v = none) (hreset : ¬(dv.heard = .both ∧ dv.isReset aw a v = true)) :
    dv.write aw a v = (dv.stray aw a v).hearing (dv.hear aw a v) := by
  rw [Device.write_eq_taken hlaw hreset, Device.taken_of_none hstop]

/-- The reset sequence from any state. -/
theorem Device.reset_leads_to_array {aw : Nat} {dv : Device} (haw : 12 ≤ aw) (hlaw : dv.law = .responder) :
    let t := Device.seen aw (resetEvents aw dv.rbase) dv
    t.mode = .array ∧ t.busy = .reads 0 ∧ t.pend = [] ∧ t.law = .responder ∧
      (dv.TakesUnlock1 → t.arr = dv.arr ∧ ∀ k, t.stored k = dv.stored k) := by
  intro t
  have ht : t = ((dv.unlock1 aw).unlock2 aw).reset.hearing .nothing := Device.seen_reset haw hlaw
  rw [ht]
  refine ⟨rfl, rfl, rfl, by simpa using hlaw, fun hstart => ?_⟩
  obtain ⟨h1, hsecond⟩ := Device.unlock1_sameArray haw hstart
  have hsame := h1.trans (Device.unlock2_sameArray haw rfl hsecond)
  exact ⟨hsame.1, hsame.stored⟩

/-- A malformed write loses the array. -/
theorem Device.reset_after_stop {aw a : Nat} {dv : Device} {v : Cell} (haw : 12 ≤ aw) (hlaw : dv.law = .responder)
    (hstop : dv.respWrite aw a v = none) (hreset : ¬(dv.heard = .both ∧ dv.isReset aw a v = true))
    (hrestarts : dv.restarts aw a v = false) :
    let u := Device.seen aw (resetEvents aw dv.rbase) (dv.write aw a v)
    u.mode = .array ∧ ∀ k, u.stored k = Config.unknownByte u.losses k := by
  intro u
  obtain ⟨hlaw', hbase'⟩ := dv.write_keeps aw a v
  have hwrite := Device.write_of_stop hlaw hstop hreset
  have hu : u = (((dv.write aw a v).unlock1 aw).unlock2 aw).reset.hearing .nothing := by
    rw [← Device.seen_reset haw (hlaw'.trans hlaw), hbase']
  have hmode : (dv.write aw a v).mode = .astray := by simp [hwrite]
  have hlost : (dv.write aw a v).LostArray := by
    rw [hwrite]
    exact Device.stray_lostArray (aw := aw) (a := a) (v := v) (.inl hrestarts)
  obtain ⟨hl, hs⟩ := Device.unlock_lostArray (aw := aw) hmode hlost
  rw [hu]
  exact ⟨rfl, Device.stored_of_lost hl hs⟩

/-- Settles O58: the three cycles of a reset are heard whatever the mode, and the first two neither lose an array of
which the statement says that it stays, nor bring a lost one back. -/
theorem responderReset : Obligations.ResponderReset := by
  intro aw dv haw hlaw
  refine ⟨Device.reset_leads_to_array haw hlaw, ?stops, ?free⟩
  case stops =>
    intro a v hstop hreset
    refine ⟨fun bt b => ?_, Device.reset_after_stop haw hlaw hstop hreset⟩
    have hfree : (dv.write aw a v).isFree = true := by
      rw [Device.isFree_responder ((dv.write_keeps aw a v).1.trans hlaw), Device.write_of_stop hlaw hstop hreset]
      simp
    rw [Device.answer, if_pos hfree]
  case free =>
    intro hfree
    refine ⟨?_, fun a v hreset => ?_⟩
    · rw [Device.afterRead, if_pos hfree]
      exact hfree
    · rw [Device.isFree_responder hlaw] at hfree
      rw [Device.isFree_responder ((dv.write_keeps aw a v).1.trans hlaw), Device.write_eq_taken hlaw hreset]
      exact (dv.taken_astray a v hfree).1

end Sys2Proof.Machine
end

section
/-! A word program and a block erase over the reference responder: the commit and its busy reads, and the commands that
lead there (47_flash_device_environment.md R326, R327, R332, R333). -/

namespace Sys2Proof.Machine

/-! ## The busy reads -/

/-- The responder after a commit of one entry, with `n` busy reads left: the entry is pending, and in the array once no
busy read is left (R333). -/
def Device.committing (n : Nat) (p : Pending) (dv : Device) : Device :=
  Device.settle { dv with mode := .array, busy := .reads n, pend := [p] }

theorem Device.committing_zero (p : Pending) (dv : Device) :
    dv.committing 0 p = { dv.land p with mode := .array, busy := .reads 0, pend := [] } := rfl

theorem Device.committing_succ (n : Nat) (p : Pending) (dv : Device) :
    dv.committing (n + 1) p = { dv with mode := .array, busy := .reads (n + 1), pend := [p] } := rfl

/-- A commit after which `n` reads are busy (R332, R333). -/
theorem Device.commit_pending {n : Nat} {dv : Device} (p : Pending) (hbusy : dv.busyReads = .reads n) :
    Device.commit { dv with pend := [p] } = dv.committing n p := by
  simp only [Device.commit, Device.committing, hbusy]

/-- How much of an unlock was heard has no part in a commit. -/
theorem Device.hearing_committing (n : Nat) (p : Pending) (dv : Device) (h : Heard) :
    (dv.committing n p).hearing h = (dv.hearing h).committing n p := by
  cases n <;> rfl

theorem Device.isFree_committing {dv : Device} (n : Nat) (p : Pending) (hlaw : dv.law = .responder) :
    (dv.committing n p).isFree = false := by
  cases n with
  | zero => simp [Device.committing_zero, Device.isFree, hlaw]
  | succ n => simp [Device.committing_succ, Device.isFree, hlaw]

/-- A busy read leaves one fewer. -/
theorem Device.afterRead_committing {dv : Device} (n : Nat) (p : Pending) (hlaw : dv.law = .responder) :
    (dv.committing (n + 1) p).afterRead = dv.committing n p := by
  rw [Device.afterRead, Device.isFree_committing _ _ hlaw]
  rfl

theorem Device.seen_busyReads {aw : Nat} {dv : Device} (a n : Nat) (p : Pending) (vs : List Cell)
    (hlaw : dv.law = .responder) :
    Device.seen aw (vs.map (rd a)) (dv.committing (n + vs.length) p) = dv.committing n p := by
  induction vs with
  | nil => rfl
  | cons v vs ih =>
    rw [List.map_cons, rd, Device.seen, List.length_cons, ← Nat.add_assoc, Device.afterRead_committing _ _ hlaw, ih]

theorem xor_0x80_ne (v : Cell) : v ^^^ 0x0080 ≠ v := by
  intro h
  have hzero : v ^^^ (v ^^^ 0x0080) = v ^^^ v := congrArg (v ^^^ ·) h
  rw [← BitVec.xor_assoc, BitVec.xor_self, BitVec.zero_xor] at hzero
  exact absurd hzero (by decide)

/-- A busy read of a pending cell shows its value with bit 7 inverted, so another value (R333). -/
theorem Device.answer_committing_ne {aw : Nat} {dv : Device} (n a : Nat) (v : Cell) (bt : List BusEvent)
    (hlaw : dv.law = .responder) : (dv.committing (n + 1) (.cell a v)).answer aw bt a ≠ v := by
  have hans : (dv.committing (n + 1) (.cell a v)).answer aw bt a = v ^^^ 0x0080 := by
    rw [Device.answer, Device.isFree_committing _ _ hlaw]
    simp [Device.committing_succ, Device.respAnswer, Busy.isDone, Device.final, pendingAt, Pending.valueAt]
  rw [hans]
  exact xor_0x80_ne v

/-- After the busy reads the cell reads its value. -/
theorem Device.answer_committed {aw : Nat} {dv : Device} (a : Nat) (v : Cell) (bt : List BusEvent)
    (hlaw : dv.law = .responder) : (dv.committing 0 (.cell a v)).answer aw bt a = v := by
  rw [Device.answer, Device.isFree_committing _ _ hlaw]
  exact Device.storedCell_land_cell dv a v

/-! ## The commands -/

/-- A command that R332 takes at the command address; no part of an unlock is heard in it. -/
theorem Device.write_command {aw a : Nat} {dv t : Device} {v : Cell} (hlaw : dv.law = .responder)
    (ho : dv.offset aw a = 0xAAA) (hv : lowByte v ≠ lowByte Config.unlock1Value)
    (htaken : dv.respWrite aw a v = some t) : dv.write aw a v = t.hearing .nothing := by
  have hreset := Device.isReset_of_offset (aw := aw) (dv := dv) (a := a) v (by simp [ho])
  have hhear : dv.hear aw a v = .nothing := by
    simp [Device.hear, Device.isUnlock1, Device.isUnlock2, ho, Config.unlock2Offset, hv]
  rw [Device.write_eq_taken hlaw (by simp [hreset]), hhear, Device.taken_of_some htaken]

theorem Device.write_wordPgm {aw a : Nat} {dv : Device} (hlaw : dv.law = .responder) (hmode : dv.mode = .u2)
    (hback : dv.back ≠ .ers1) (ho : dv.offset aw a = 0xAAA) :
    dv.write aw a Config.wordPgmValue = { dv with mode := .pgm, heard := .nothing } := by
  refine Device.write_command (t := { dv with mode := .pgm }) hlaw ho (by decide) ?_
  have hreset := Device.isReset_of_offset (aw := aw) (dv := dv) (a := a) Config.wordPgmValue (by simp [ho])
  simp only [Device.respWrite, hmode, Device.command, hreset, hback, ho]
  rfl

theorem Device.write_eraseSetup {aw a : Nat} {dv : Device} (hlaw : dv.law = .responder) (hmode : dv.mode = .u2)
    (hback : dv.back ≠ .ers1) (ho : dv.offset aw a = 0xAAA) :
    dv.write aw a Config.eraseSetupValue = { dv with mode := .ers1, heard := .nothing } := by
  refine Device.write_command (t := { dv with mode := .ers1 }) hlaw ho (by decide) ?_
  have hreset := Device.isReset_of_offset (aw := aw) (dv := dv) (a := a) Config.eraseSetupValue (by simp [ho])
  simp only [Device.respWrite, hmode, Device.command, hreset, hback, ho]
  rfl

/-- The data word of a word program commits. -/
theorem Device.write_data {aw n : Nat} {dv : Device} (a : Nat) (v : Cell) (hlaw : dv.law = .responder)
    (hmode : dv.mode = .pgm) (hheard : dv.heard = .nothing) (hbusy : dv.busyReads = .reads n) :
    dv.write aw a v = (dv.hearing (dv.hear aw a v)).committing n (.cell a v) := by
  have htaken : dv.respWrite aw a v = some (Device.commit { dv with pend := [.cell a v] }) := by
    simp only [Device.respWrite, hmode]
  rw [Device.write_eq_taken hlaw (by simp [hheard]), Device.taken_of_some htaken,
    Device.commit_pending _ hbusy, Device.hearing_committing]

/-- The confirm cycle of an erase commits the block that holds the address. -/
theorem Device.write_eraseConfirm {aw n : Nat} {dv : Device} (a : Nat) (hlaw : dv.law = .responder)
    (hmode : dv.mode = .u2) (hback : dv.back = .ers1) (hpend : dv.pend = []) (hbusy : dv.busyReads = .reads n) :
    dv.write aw a Config.eraseConfirmValue = (dv.hearing (dv.hear aw a Config.eraseConfirmValue)).committing n
      (.block (a / dv.rblock * dv.rblock) dv.rblock) := by
  have hreset : dv.isReset aw a Config.eraseConfirmValue = false := by
    simp [Device.isReset, show lowByte Config.eraseConfirmValue ≠ lowByte Config.resetValue by decide]
  have htaken : dv.respWrite aw a Config.eraseConfirmValue =
      some (Device.commit { dv with pend := [.block (a / dv.rblock * dv.rblock) dv.rblock] }) := by
    simp only [Device.respWrite, hmode, Device.command, hreset, hback, hpend]
    rfl
  rw [Device.write_eq_taken hlaw (by simp [hreset]), Device.taken_of_some htaken,
    Device.commit_pending _ hbusy, Device.hearing_committing]

/-! ## The operations -/

/-- The cycles of a word program lead to its commit. -/
theorem Device.seen_wordProgram {aw n : Nat} {dv : Device} (a : Nat) (v : Cell) (haw : 12 ≤ aw)
    (hlaw : dv.law = .responder) (hmode : dv.mode = .array) (hbusy : dv.busyReads = .reads n) :
    ∃ h, Device.seen aw (unlockEvents aw dv.rbase ++ [wr (addAW aw dv.rbase 0xAAA) 0x00A0, wr a v]) dv =
      Device.committing n (.cell a v) { dv with back := .array, mode := .pgm, heard := h } := by
  rw [Device.seen_append, Device.seen_unlock_of_start (b := .array) haw hlaw hmode]
  have hcmd := Device.write_wordPgm (dv := { dv with back := .array, mode := .u2, heard := .both }) hlaw rfl
    (by simp) (dv.offset_of_wide haw (by decide))
  have hdata := Device.write_data (aw := aw) (dv := { dv with back := .array, mode := .pgm, heard := .nothing }) a v
    hlaw rfl rfl hbusy
  exact ⟨_, (congrArg (Device.write aw · a v) hcmd).trans hdata⟩

/-- The cycles of an erase lead to its commit. -/
theorem Device.seen_erase {aw n : Nat} {dv : Device} (a : Nat) (haw : 12 ≤ aw) (hlaw : dv.law = .responder)
    (hmode : dv.mode = .array) (hpend : dv.pend = []) (hbusy : dv.busyReads = .reads n) :
    ∃ h, Device.seen aw (unlockEvents aw dv.rbase ++ [wr (addAW aw dv.rbase 0xAAA) 0x0080] ++
        unlockEvents aw dv.rbase ++ [wr a 0x0030]) dv =
      Device.committing n (.block (a / dv.rblock * dv.rblock) dv.rblock)
        { dv with back := .ers1, mode := .u2, heard := h } := by
  have hsetup : Device.seen aw [wr (addAW aw dv.rbase 0xAAA) 0x0080]
      { dv with back := .array, mode := .u2, heard := .both } =
        { dv with back := .array, mode := .ers1, heard := .nothing } :=
    Device.write_eraseSetup hlaw rfl (by simp) (dv.offset_of_wide haw (by decide))
  have hagain := Device.seen_unlock_of_start (dv := { dv with back := .array, mode := .ers1, heard := .nothing })
    (b := .ers1) haw hlaw rfl
  have hconfirm := Device.write_eraseConfirm (aw := aw) (dv := { dv with back := .ers1, mode := .u2, heard := .both }) a
    hlaw rfl rfl hpend hbusy
  rw [Device.seen_append, Device.seen_append, Device.seen_append,
    Device.seen_unlock_of_start (b := .array) haw hlaw hmode, hsetup]
  exact ⟨_, (congrArg (Device.write aw · a 0x0030) hagain).trans hconfirm⟩

/-- Settles O59: the word is pending while the busy reads last, and lands after the last. -/
theorem responderProgramsAWord : Obligations.ResponderProgramsAWord := by
  intro aw dv a v n vs haw hlaw hmode hbusy hlen p t
  obtain ⟨h, hp⟩ := Device.seen_wordProgram a v haw hlaw hmode hbusy
  have hreads (k : Nat) (ws : List Cell) (hk : k + ws.length = n) : Device.seen aw (ws.map (rd a)) p =
      Device.committing k (.cell a v) { dv with back := .array, mode := .pgm, heard := h } := by
    rw [show p = _ from hp, ← hk]
    exact Device.seen_busyReads a k _ ws hlaw
  rw [show t = _ from hreads 0 vs (by omega)]
  refine ⟨rfl, rfl, rfl, fun bt => Device.answer_committed a v bt hlaw, fun k h0 h1 => ?other, fun k bt hk => ?busy⟩
  case other =>
    have hland := Device.stored_land_cell dv a v k
    rwa [if_neg h0, if_neg h1] at hland
  case busy =>
    rw [hreads (n - k - 1 + 1) (vs.take k) (by rw [List.length_take]; omega)]
    exact Device.answer_committing_ne _ a v bt hlaw

/-- Settles O60: the block is pending while the busy reads last, and lands after the last. -/
theorem responderErasesABlock : Obligations.ResponderErasesABlock := by
  intro aw dv a n vs haw hlaw hmode hpend hbusy hlen hwf lo t
  obtain ⟨h, hp⟩ := Device.seen_erase a haw hlaw hmode hpend hbusy
  have ht : t = Device.committing 0 (.block lo dv.rblock) { dv with back := .ers1, mode := .u2, heard := h } := by
    simp only [t, hp]
    rw [← hlen, ← Nat.zero_add vs.length]
    exact Device.seen_busyReads a 0 _ vs hlaw
  rw [ht]
  have hland (k : Nat) := Device.stored_land_block dv lo dv.rblock k
  refine ⟨rfl, Memory.wf_eraseRange lo dv.rblock hwf, fun k hlo hhi => ?inside, fun k hout => ?outside⟩
  case inside => exact (hland k).trans (if_pos ⟨hlo, hhi⟩)
  case outside => exact (hland k).trans (if_neg hout)

end Sys2Proof.Machine
end

section
/-! An idle block with nothing offered, and hardware reset (70_reset_and_hazards.md R400, R402). -/

namespace Sys2Proof.Machine

/-- Without hardware reset a step is the next event, once the reset line's indication is used up. -/
theorem step_eq_stepEvent {s : State} (hreset : s.resetAsserted = false) : step s = stepEvent s.popReset := by
  simp [step, hreset]

/-- A ready block goes to the requests offered to it. -/
theorem stepEvent_ready {s : State} (hready : s.Ready) : stepEvent s = stepIdle s := by
  obtain ⟨hidle, hf⟩ := hready
  simp [stepEvent, State.stopped, hidle, hf]

/-- A block with nothing offered waits. -/
theorem stepIdle_waits {s : State} (hnone : s.requests = []) : stepIdle s = .next s := by
  simp only [stepIdle, hnone]

/-- Settles O8: the step of a ready block is `stepIdle`, which waits when nothing is offered. -/
theorem idleBlockWaits : Obligations.IdleBlockWaits := by
  intro s hready hreset hnone
  rw [step_eq_stepEvent hreset, stepEvent_ready (s := s.popReset) hready, stepIdle_waits (s := s.popReset) hnone]
  rfl

/-- An asserted hardware reset is the whole step, in any state. -/
theorem step_hardwareReset {s : State} (hreset : s.resetAsserted = true) :
    step s = .next s.popReset.hardwareReset := by
  simp [step, hreset]

/-- Settles O12: the step is the hardware reset, which gives each register its reset value and keeps what lies outside the
block. -/
theorem hardwareResetSetsRegisters : Obligations.HardwareResetSetsRegisters :=
  fun s hreset => ⟨s.popReset.hardwareReset, step_hardwareReset hreset, rfl, rfl, rfl, rfl, rfl, rfl, rfl, rfl⟩

end Sys2Proof.Machine
end

section
/-! A bus fault on the coming cycle stops the block after that cycle's event (60_exceptions.md R364, 10_state.md R34). -/

namespace Sys2Proof.Machine

/-- A position whose next event is a bus cycle belongs to a running operation. -/
theorem busy_of_comesTo {s : State} {a : Nat} (h : s.ComesTo a) :
    s.seq ≠ .idle ∧ s.seq ≠ .faulted ∧ ∀ st res, s.seq ≠ .respond st res := by
  refine ⟨fun hq => ?_, fun hq => ?_, fun st res hq => ?_⟩ <;>
    simp [State.ComesTo, State.comingWrite, State.comingRead, hq, Seq.cycle] at h

/-- A position whose next event is a bus read emits no command cycle. -/
theorem cycle_of_comingRead {s : State} {a : Nat} (h : s.comingRead = some a) : s.seq.cycle = none := by
  unfold State.comingRead at h
  split at h
  case h_14 => cases h
  all_goals simp only [*, Seq.cycle, Rqf.cycle]

/-- Holding the word of a data cycle in WDATA is no event, and uses up no fault indication. -/
theorem beforeCycle_lines (s : State) (k : CycleKind) :
    (s.beforeCycle k).trace = s.trace ∧ (s.beforeCycle k).busFaulting = s.busFaulting := by
  cases k <;> exact ⟨rfl, rfl⟩

/-- At a position whose next event is a bus write the event is exactly that write, and a signalled fault is taken. -/
theorem event_of_comingWrite {s : State} {a : Nat} {v : Cell} (h : s.comingWrite = some (a, v))
    (hfault : s.busFaulting = true) : s.event.trace = s.trace ++ [wr a v] ∧ s.event.faulted = true := by
  obtain ⟨k, hk, _⟩ | ⟨hq, _⟩ := comingWrite_cases h
  · cases (comingWrite_cycle hk).symm.trans h
    obtain ⟨htrace, hsignal⟩ := beforeCycle_lines s k
    simp [State.event, hk, State.writeCycle, htrace, hsignal, hfault, wr]
  · cases (comingWrite_wrCyc hq).symm.trans h
    simp [State.event, hq, Seq.cycle, State.comingRead, hfault, wr]

/-- At a position whose next event is a bus read the event is a read of exactly that address, whose value RDATA then
holds, and a signalled fault is taken. -/
theorem event_of_comingRead {s : State} {a : Nat} (h : s.comingRead = some a) (hfault : s.busFaulting = true) :
    s.event.trace = s.trace ++ [rd a (s.readValue a)] ∧ s.event.rdata = s.readValue a ∧ s.event.faulted = true := by
  simp [event_read (cycle_of_comingRead h) h, hfault, rd]

/-- After an event on which the fault was taken the block is stopped. -/
theorem settled_stoppedBy {s : State} {e : Event} (hf : s.faulted = false) (hreset : s.resetPort = [])
    (htrace : s.event.trace = s.trace ++ [e]) (htaken : s.event.faulted = true) : s.StoppedBy e s.event.settled := by
  have hsettled : s.event.settled = s.event := if_pos htaken
  have hseq : s.event.seq = .faulted := by rw [event_seq s hf, if_pos htaken]
  have hstop : step s.event = .fault .busFault :=
    (stepStopsOnlyWhenFaulted.2 _ _).mpr ⟨by simp [State.resetAsserted, hreset], .inl htaken⟩
  rw [hsettled]
  exact ⟨htrace, htaken, hseq, hstop⟩

/-- Without hardware reset the step of a running block, other than a response, is its event. -/
theorem step_busy {s : State} (hreset : s.resetPort = []) (hf : s.faulted = false) (hidle : s.seq ≠ .idle)
    (hrunning : s.seq ≠ .faulted) (hresp : ∀ st res, s.seq ≠ .respond st res) : step s = .next s.event.settled := by
  have hstop : s.stopped = false := by simp [State.stopped, hf, hrunning]
  rw [step_eq_stepEvent (by simp [State.resetAsserted, hreset]), popReset_eq_self hreset,
    stepEvent_busy hstop hidle hresp]

theorem step_of_comesTo {s : State} {a : Nat} (hf : s.faulted = false) (hreset : s.resetPort = []) (h : s.ComesTo a) :
    step s = .next s.event.settled := by
  obtain ⟨hidle, hrunning, hresp⟩ := busy_of_comesTo h
  exact step_busy hreset hf hidle hrunning hresp

/-- The command cycle SEQ names, executed at its position, is the event of that position. -/
theorem exec_cycleInstr_eq_event {s : State} {i : Instr} (hf : s.faulted = false) (hi : s.cycleInstr = some i) :
    exec i s = .next s.event.settled := by
  have hstop : s.stopped = false := by simp [State.stopped, hf, (seq_ne_of_cycleInstr hi).2]
  obtain ⟨k, hk, hexec⟩ := exec_cycleInstr hstop hi
  simp only [hexec, afterCycle, State.settled, State.event, hk]

/-- Where no bus cycle is next the event of a busy block adds nothing to the bus trace. -/
theorem event_busTrace_noCycle {s : State} (hwrite : s.comingWrite = none) (hread : s.comingRead = none)
    (hidle : s.seq ≠ .idle) (hfault : s.seq ≠ .faulted) (hresp : ∀ st res, s.seq ≠ .respond st res) :
    s.event.busTrace = s.busTrace := by
  obtain h | ⟨e, ⟨v, hcome⟩ | hcome, _⟩ := event_busTrace_cases hidle hfault hresp
  · exact h
  · simp [hwrite] at hcome
  · simp [hread] at hcome

/-- Where no bus cycle is next a step adds nothing to the bus trace: reset, acceptance and response are no bus events. -/
theorem step_busTrace_noCycle {s t : State} (hwrite : s.comingWrite = none) (hread : s.comingRead = none)
    (h : step s = .next t) : t.busTrace = s.busTrace := by
  obtain ⟨_, rfl⟩ | ⟨_, hf, ⟨hidle, h⟩ | ⟨st, res, _, rfl⟩ | ⟨hidle, hfault, hresp, rfl⟩⟩ := step_cases h
  case inl => rfl
  case inr.inl =>
    obtain ⟨_, rfl⟩ | ⟨r, rest, _, hstart⟩ := stepIdle_cases (s := s.popReset) ⟨hidle, hf⟩ h
    · rfl
    · rw [hstart.busTrace_eq, State.accept_busTrace]
      rfl
  case inr.inr.inl => exact State.respond_busTrace st res s.popReset
  case inr.inr.inr =>
    have hevent := event_busTrace_noCycle (s := s.popReset) hwrite hread hidle hfault hresp
    exact (congrArg busEvents (settled_trace _)).trans hevent

/-- Settles O42: the step, and the command cycle executed at its position, is the event of the coming bus cycle, on which
the fault is taken; no other step makes a bus event. -/
theorem busFaultStopsTheBlock : Obligations.BusFaultStopsTheBlock := by
  intro s hf hreset hfault
  have hstopped {a : Nat} {v : Cell} (hwrite : s.comingWrite = some (a, v)) : s.StoppedBy (wr a v) s.event.settled := by
    obtain ⟨htrace, htaken⟩ := event_of_comingWrite hwrite hfault
    exact settled_stoppedBy hf hreset htrace htaken
  refine ⟨fun a v hwrite => ?write, fun a hread => ?read, fun i a v hi hwrite => ?cycle, fun t => step_busTrace_noCycle⟩
  case write => exact ⟨_, step_of_comesTo hf hreset (.inl ⟨v, hwrite⟩), hstopped hwrite⟩
  case read =>
    obtain ⟨htrace, hrdata, htaken⟩ := event_of_comingRead hread hfault
    exact ⟨_, s.readValue a, step_of_comesTo hf hreset (.inr hread), settled_stoppedBy hf hreset htrace htaken,
      (settled_rdata _).trans hrdata⟩
  case cycle => exact ⟨_, exec_cycleInstr_eq_event hf hi, hstopped hwrite⟩

end Sys2Proof.Machine
end

section
/-! Every operation ends (70_reset_and_hazards.md R420). Each step of a busy block brings it nearer to its response: one
round of a loop less is left (a page of WRITE_BUFFER, a byte of READ_BUFFER), or fewer steps in this round. -/

namespace Sys2Proof.Machine

/-- The steps left in a reset sequence (41_unlock_reset.md R163). -/
def Rst.stepsLeft : Rst → Nat
  | .u1 => 3
  | .u2 => 2
  | .f0 => 1

/-- The steps left in a READ_QUERY_FIELD sequence, its trailing reset included (43_ident_query.md R207). -/
def Rqf.stepsLeft : Rqf → Nat
  | .u1 => 8
  | .u2 => 7
  | .enter => 6
  | .cfi => 5
  | .read => 4
  | .rst r => r.stepsLeft

/-- The bytes READ_BUFFER has left from RIDX = `i` to RIDX = `n`, for RIDX counts modulo `2 ^ AW` (45_read_path.md R300). -/
def bytesFrom (aw n i : Nat) : Nat := if i ≤ n then n - i else 2 ^ aw + n - i

/-- What is left to the loop SEQ stands in: words of WRITE_BUFFER, bytes of READ_BUFFER; 0 outside both. -/
def State.roundsLeft (s : State) : Nat :=
  match s.seq with
  | .rbCell | .rbOut => bytesFrom s.params.aw s.a1 (s.plus s.ridx 1) + 1
  | q => if q.inPage then s.rem else 0

/-- A bound on the steps before the response, or before the end of this round of the loop. A poll takes as many steps as it has
reads left, 0 to `POLL_CEILING` (42_poll.md R186), and a reset sequence may follow it. -/
def State.stepsLeft (s : State) : Nat :=
  match s.seq with
  | .idle | .faulted | .respond _ _ | .rbOut => 0
  | .wrCyc | .rdCyc | .unlU2 | .rbCell => 1
  | .unlU1 => 2
  | .rst r | .midRst r | .didRst r | .wpRst r | .erRst r | .wbAbort r | .wbRst r => r.stepsLeft
  | .midRead | .didExt2 => 4
  | .midEnter | .didExt1 => 5
  | .midU2 | .didRead => 6
  | .midU1 | .didEnter => 7
  | .didU2 => 8
  | .didU1 => 9
  | .rqf p | .gbsHigh p => p.stepsLeft
  | .gbsLow p => p.stepsLeft + 8
  | .pollRd | .wpPoll | .erPoll | .wbPoll => 3 + (s.params.pollCeiling.toNat - s.pollCnt.toNat)
  | .wpData | .erConfirm | .wbConfirm => 4 + s.params.pollCeiling.toNat
  | .wpCmd | .erU2B => 5 + s.params.pollCeiling.toNat
  | .wpU2 | .erU1B => 6 + s.params.pollCeiling.toNat
  | .wpU1 | .erSetup => 7 + s.params.pollCeiling.toNat
  | .erU2A => 8 + s.params.pollCeiling.toNat
  | .erU1A => 9 + s.params.pollCeiling.toNat
  | .erRst0 r => r.stepsLeft + (9 + s.params.pollCeiling.toNat)
  | .wbData => 2 + s.params.pollCeiling.toNat + 3 * (s.bw.toNat - s.wi.toNat)
  | .wbSrc1 => 3 + s.params.pollCeiling.toNat + 3 * (s.bw.toNat - s.wi.toNat)
  | .wbSrc0 => 4 + s.params.pollCeiling.toNat + 3 * (s.bw.toNat - s.wi.toNat)
  | .wbCount => 5 + s.params.pollCeiling.toNat + 3 * s.bw.toNat
  | .wbLoad => 6 + s.params.pollCeiling.toNat + 3 * s.bw.toNat
  | .wbU2 => 7 + s.params.pollCeiling.toNat + 3 * s.bw.toNat
  | .wbU1 => 8 + s.params.pollCeiling.toNat + 3 * s.bw.toNat

/-- What is left of the operation, the rounds first. -/
def State.left (s : State) : Nat × Nat := (s.roundsLeft, s.stepsLeft)

/-- Less is left of the operation in `t` than in `s`. -/
def State.Nearer (t s : State) : Prop := Prod.Lex (· < ·) (· < ·) t.left s.left

theorem State.nearer_of_rounds {t s : State} (h : t.roundsLeft < s.roundsLeft) : t.Nearer s := .left _ _ h

theorem State.nearer_of_steps {t s : State} (hrounds : t.roundsLeft = s.roundsLeft) (hsteps : t.stepsLeft < s.stepsLeft) :
    t.Nearer s := Prod.lex_def.mpr (.inr ⟨hrounds, hsteps⟩)

/-! ## The poll loop -/

theorem stepsLeft_poll {s : State} (hpoll : s.seq.isPoll = true) :
    s.stepsLeft = 3 + (s.params.pollCeiling.toNat - s.pollCnt.toNat) := by
  unfold State.stepsLeft
  cases hq : s.seq <;> simp [hq, Seq.isPoll] at hpoll <;> rfl

/-- Opening a page or ending them leaves what REM says. -/
theorem wbNextPage_roundsLeft (s : State) : (wbNextPage s).roundsLeft = s.rem := by
  by_cases hleft : s.rem = 0
  · rw [wbNextPage_ends hleft, hleft]
    split <;> rfl
  · rw [wbNextPage_opens hleft]
    rfl

/-- A poller that returns ends a page, or goes on with a reset sequence at most. -/
theorem pollReturn_nearer {s t : State} (ok : Bool) (hpoll : s.seq.isPoll = true) (hpage : PageBounded s)
    (hrounds : s.roundsLeft = t.roundsLeft) (hsteps : 3 < t.stepsLeft) : (pollReturn ok s).Nearer t := by
  cases hq : s.seq <;> simp [hq, Seq.isPoll] at hpoll
  case wbPoll =>
    obtain ⟨hone, _, hrem⟩ := hpage.1 (by rw [hq]; rfl)
    have hleft : s.roundsLeft = s.rem := by simp [State.roundsLeft, hq, Seq.inPage]
    refine State.nearer_of_rounds ?_
    rw [← hrounds, hleft, pollReturn_wbPoll ok hq]
    cases ok
    · exact Nat.lt_of_lt_of_le hone hrem
    · rw [if_pos rfl, wbPageDone, wbNextPage_roundsLeft]
      exact Nat.sub_lt (Nat.lt_of_lt_of_le hone hrem) hone
  all_goals
    refine State.nearer_of_steps (hrounds ▸ ?_) (Nat.lt_of_le_of_lt ?_ hsteps)
    all_goals simp [pollReturn, hq, State.roundsLeft, State.stepsLeft, Seq.inPage, Rst.stepsLeft]

/-- The head of the poll loop reads once more or returns, and neither takes more steps than the reads left allow. -/
theorem pollTest_nearer {s t : State} (hpoll : s.seq.isPoll = true) (hpage : PageBounded s)
    (hrounds : s.roundsLeft = t.roundsLeft) (hsteps : s.stepsLeft < t.stepsLeft) : (pollTest s).Nearer t := by
  unfold pollTest
  split
  · have hleft := stepsLeft_poll hpoll
    exact pollReturn_nearer false hpoll hpage hrounds (by omega)
  · exact State.nearer_of_steps hrounds hsteps

/-- A read is counted, so one less is left. -/
theorem pollAfterRead_nearer {s : State} (hpoll : s.seq.isPoll = true) (hbound : PollBounded s) (hpage : PageBounded s) :
    (pollAfterRead s).Nearer s := by
  have hlt := hbound.2 hpoll
  have hleft := stepsLeft_poll hpoll
  have hcount : (s.pollCnt + 1).toNat = s.pollCnt.toNat + 1 := by bv_omega
  have hcounted : State.stepsLeft { s with pollCnt := s.pollCnt + 1 } =
      3 + (s.params.pollCeiling.toNat - (s.pollCnt + 1).toNat) := stepsLeft_poll hpoll
  unfold pollAfterRead
  dsimp only
  split
  · exact pollReturn_nearer true hpoll hpage rfl (by omega)
  · exact pollTest_nearer hpoll hpage rfl (by omega)

/-- A poll that opens has as many reads left as `POLL_CEILING` allows. -/
theorem pollStart_nearer {s : State} {site : Seq} (a : Nat) (v : Cell) (hpoll : site.isPoll = true)
    (hpage : PageBounded (s.goTo site)) (hrounds : (s.goTo site).roundsLeft = s.roundsLeft)
    (hsteps : 3 + s.params.pollCeiling.toNat < s.stepsLeft) : (pollStart site a v s).Nearer s :=
  pollTest_nearer hpoll hpage hrounds ((stepsLeft_poll hpoll).trans_lt hsteps)

/-! ## The byte loop -/

/-- Counting RIDX on from an index other than the last leaves one byte less. -/
theorem bytesFrom_next_lt {aw n i : Nat} (hlen : n < 2 ^ aw) (hidx : i < 2 ^ aw) (hmore : i ≠ n) :
    bytesFrom aw n (addAW aw i 1) < bytesFrom aw n i := by
  unfold bytesFrom addAW
  generalize 2 ^ aw = m at *
  by_cases hwrap : i + 1 = m
  · rw [hwrap, Nat.mod_self, if_pos (Nat.zero_le n), if_neg (by omega)]
    omega
  · rw [Nat.mod_eq_of_lt (by omega)]
    split <;> split <;> omega

/-- The byte loop ends, or goes on with the bytes left from RIDX on. -/
theorem rbNext_roundsLeft {s : State} (hlen : s.a1 < 2 ^ s.params.aw) (hidx : s.ridx < 2 ^ s.params.aw) :
    (rbNext s).roundsLeft ≤ bytesFrom s.params.aw s.a1 s.ridx := by
  unfold rbNext
  split
  next => exact Nat.zero_le _
  next hmore =>
    have hless := bytesFrom_next_lt hlen hidx hmore
    split <;> exact hless

/-- A delivery leaves READ_BUFFER one byte less. -/
theorem deliver_nearer {s : State} (hq : s.seq = .rbOut) (hlen : s.a1 < 2 ^ s.params.aw) :
    (advance s.event).Nearer s := by
  have hseq : s.event.seq = .rbOut := by simp [State.event, hq, Seq.cycle, State.comingRead]
  have hridx : s.event.ridx = s.plus s.ridx 1 := by simp [State.event, hq, Seq.cycle, State.comingRead]
  have hidx : s.event.ridx < 2 ^ s.event.params.aw := by
    rw [hridx, event_params]
    exact addAW_lt ..
  have hrounds := rbNext_roundsLeft (s := s.event) (by simpa using hlen) hidx
  rw [event_params, event_a1, hridx] at hrounds
  have hleft : s.roundsLeft = bytesFrom s.params.aw s.a1 (s.plus s.ridx 1) + 1 := by simp only [State.roundsLeft, hq]
  simp only [advance, hseq]
  exact State.nearer_of_rounds (hleft ▸ Nat.lt_succ_of_le hrounds)

/-! ## The sequences inside a phase -/

theorem State.nearer_of_left {t s : State} {n m : Nat} (ht : t.left = (0, n)) (hs : s.left = (0, m)) (hlt : n < m) :
    t.Nearer s := by
  rw [State.Nearer, ht, hs]
  exact .right _ hlt

/-- A reset sequence with `n` steps after it. -/
theorem rstNext_nearer {phase : Rst → Seq} {done : State → State} {r : Rst} {s : State} (n : Nat) (hq : s.seq = phase r)
    (hphase : ∀ p, (s.goTo (phase p)).left = (0, p.stepsLeft + n)) (hdone : (done s).left = (0, n)) :
    (rstNext phase done r s).Nearer s := by
  have hs := hphase r
  rw [← hq] at hs
  cases r with
  | u1 | u2 => exact State.nearer_of_left (hphase _) hs (by simp [Rst.stepsLeft])
  | f0 => exact State.nearer_of_left hdone hs (by simp [Rst.stepsLeft])

/-- A READ_QUERY_FIELD sequence with `n` steps after it. -/
theorem rqfNext_nearer {phase : Rqf → Seq} {done : State → State} {p : Rqf} {s : State} (n : Nat) (hq : s.seq = phase p)
    (hphase : ∀ p, (s.goTo (phase p)).left = (0, p.stepsLeft + n)) (hdone : (done s).left = (0, n)) :
    (rqfNext phase done p s).Nearer s := by
  have hs := hphase p
  rw [← hq] at hs
  cases p with
  | u1 | u2 | enter | cfi => exact State.nearer_of_left (hphase _) hs (by simp [Rqf.stepsLeft])
  | read =>
    unfold rqfNext
    dsimp only
    split
    · exact State.nearer_of_left (hphase _) hs (by simp [Rqf.stepsLeft, Rst.stepsLeft])
    · exact State.nearer_of_left hdone hs (by simp [Rqf.stepsLeft])
  | rst r => exact rstNext_nearer n hq (fun q => hphase (.rst q)) hdone

/-! ## Advancing -/

/-- Advancing from a position other than a delivery brings the operation nearer to its response. -/
theorem advance_nearer {s : State} (hidle : s.seq ≠ .idle) (hfault : s.seq ≠ .faulted)
    (hresp : ∀ st res, s.seq ≠ .respond st res) (hout : s.seq ≠ .rbOut) (hbound : PollBounded s)
    (hpage : PageBounded s) : (advance s).Nearer s := by
  have ⟨hregs, hword⟩ := hpage
  cases hq : s.seq with
  | idle => exact absurd hq hidle
  | faulted => exact absurd hq hfault
  | respond st res => exact absurd hq (hresp st res)
  | rbOut => exact absurd hq hout
  | pollRd | wpPoll | erPoll | wbPoll =>
    simp only [advance, hq]
    exact pollAfterRead_nearer (by rw [hq]; rfl) hbound hpage
  | wpData | erConfirm =>
    simp only [advance, hq]
    exact pollStart_nearer _ _ rfl (pageBounded_outside rfl) (by simp [State.roundsLeft, hq, Seq.inPage])
      (by simp [State.stepsLeft, hq])
  | wbConfirm =>
    simp only [advance, hq]
    exact pollStart_nearer _ _ rfl (pageBounded_outsideWords (hregs (by rw [hq]; rfl)) rfl)
      (by simp [State.roundsLeft, hq, Seq.inPage]) (by simp [State.stepsLeft, hq])
  | wbData =>
    have hlt := hword (by rw [hq]; rfl)
    have hcount : (s.wi + 1).toNat = s.wi.toNat + 1 := by bv_omega
    simp only [advance, hq, wbWordDone_eq]
    split
    · exact State.nearer_of_steps (by simp [State.roundsLeft, hq, Seq.inPage])
        (by simp only [State.stepsLeft, hq]; omega)
    · exact State.nearer_of_steps (by simp [State.roundsLeft, hq, Seq.inPage])
        (by simp only [State.stepsLeft, hq, hcount]; omega)
  | rst | midRst | didRst | wpRst | erRst | wbAbort | wbRst =>
    simp only [advance, hq]
    exact rstNext_nearer 0 hq (fun _ => rfl) rfl
  | erRst0 =>
    simp only [advance, hq]
    exact rstNext_nearer (9 + s.params.pollCeiling.toNat) hq (fun _ => rfl) rfl
  | rqf | gbsHigh =>
    simp only [advance, hq]
    exact rqfNext_nearer 0 hq (fun _ => rfl) rfl
  | gbsLow =>
    simp only [advance, hq]
    exact rqfNext_nearer 8 hq (fun _ => rfl) rfl
  | didRead =>
    simp only [advance, hq]
    split <;> exact State.nearer_of_steps (by simp [State.roundsLeft, hq, Seq.inPage])
      (by simp [State.stepsLeft, hq, Rst.stepsLeft])
  | _ =>
    exact State.nearer_of_steps (by simp [advance, State.roundsLeft, hq, Seq.inPage])
      (by simp [advance, State.stepsLeft, hq, Rst.stepsLeft])

/-! ## The step -/

/-- Only a delivery moves RIDX. -/
theorem event_ridx {s : State} (hout : s.seq ≠ .rbOut) : s.event.ridx = s.ridx := by
  unfold State.event State.writeCycle
  split
  next k _ => cases k <;> simp [State.beforeCycle]
  next =>
    split
    · simp
    · split <;> simp_all

/-- An event other than a delivery leaves the registers that say what is left. -/
theorem event_left {s : State} (hseq : s.event.seq = s.seq) (hout : s.seq ≠ .rbOut) : s.event.left = s.left := by
  simp [State.left, State.roundsLeft, State.stepsLeft, hseq, event_ridx hout]

/-- The block runs, or is idle, and meets the loop invariants. -/
structure State.UnderWay (s : State) : Prop where
  noReset : s.resetPort = []
  unfaulted : s.faulted = false
  running : s.seq ≠ .faulted
  poll : PollBounded s
  page : PageBounded s
  len : s.a1 < 2 ^ s.params.aw

/-- The operation has come back to IDLE, or a bus fault has stopped it. -/
abbrev State.Ended (s : State) : Prop := s.seq = .idle ∨ s.faulted = true

/-- The event of a busy block stops it, or brings its operation nearer to the response. -/
theorem event_nearer {s : State} (h : s.UnderWay) (hidle : s.seq ≠ .idle) (hresp : ∀ st res, s.seq ≠ .respond st res)
    (hgoing : s.event.faulted = false) : (advance s.event).seq ≠ .faulted ∧ (advance s.event).Nearer s := by
  have hseq : s.event.seq = s.seq := by simpa [hgoing] using event_seq s h.unfaulted
  refine ⟨(advance_seq s.event (hseq ▸ hidle) (hseq ▸ h.running)).2, ?_⟩
  by_cases hout : s.seq = .rbOut
  · exact deliver_nearer hout h.len
  · have hnear := advance_nearer (s := s.event) (hseq ▸ hidle) (hseq ▸ h.running) (hseq ▸ hresp) (hseq ▸ hout)
      (event_bounded h.unfaulted h.poll) (event_pageBounded h.unfaulted h.page)
    rwa [State.Nearer, event_left hseq hout] at hnear

/-- A step of a busy block ends its operation, or brings it nearer to its end. -/
theorem step_ends_or_nearer {s : State} (h : s.UnderWay) (hidle : s.seq ≠ .idle) :
    ∃ t, step s = .next t ∧ (t.Ended ∨ t.UnderWay ∧ t.Nearer s) := by
  by_cases hresp : ∃ st res, s.seq = .respond st res
  · obtain ⟨st, res, hq⟩ := hresp
    exact ⟨_, step_respond (by simp [State.resetAsserted, h.noReset]) h.unfaulted hq, .inl (.inl rfl)⟩
  · have hresp' : ∀ st res, s.seq ≠ .respond st res := fun st res hq => hresp ⟨st, res, hq⟩
    have hstep := step_busy h.noReset h.unfaulted hidle h.running hresp'
    refine ⟨_, hstep, ?_⟩
    cases hgoing : s.event.faulted
    · have hadvance : s.event.settled = advance s.event := by simp [State.settled, hgoing]
      obtain ⟨hrunning, hnear⟩ := event_nearer h hidle hresp' hgoing
      rw [← hadvance] at hrunning hnear
      exact .inr ⟨⟨by simp [h.noReset], by simp [hgoing], hrunning, stepKeepsPollBounded _ _ h.poll hstep,
        stepKeepsPageBounded _ _ h.page hstep, by simpa using h.len⟩, hnear⟩
    · exact .inl (.inr (by simp [hgoing]))

/-- Every operation under way ends, for what is left of it cannot become less without end. -/
theorem run_ends (s : State) (h : s.UnderWay) : ∃ n t, run n s = .next t ∧ t.Ended := by
  by_cases hidle : s.seq = .idle
  · exact ⟨0, s, rfl, .inl hidle⟩
  · obtain ⟨t, hstep, hended | ⟨hunder, hnear⟩⟩ := step_ends_or_nearer h hidle
    · exact ⟨1, t, run_succ hstep, hended⟩
    · obtain ⟨n, u, hrun, hended⟩ := run_ends t hunder
      exact ⟨n + 1, u, (run_succ hstep).trans hrun, hended⟩
termination_by s.left
decreasing_by exact hnear

/-- Settles O49, by induction on what is left of the operation. -/
theorem everyOperationEnds : Obligations.EveryOperationEnds :=
  fun s hreset hf hrunning hpoll hpage hlen => run_ends s ⟨hreset, hf, hrunning, hpoll, hpage, hlen⟩

end Sys2Proof.Machine
end
